-- ==== Sys2Proof/Word.lean ====
section
/-! DEFINITION. Bytes and 16-bit words: what the line, the store and the serial line carry. -/

namespace Sys2Proof

/-- One byte of a telegram, of the configuration image or of a status record. -/
abbrev Byte := BitVec 8

/-- A 16-bit number: a serial, a program id, a day number, a check value. -/
abbrev Word := BitVec 16

/-- Two bytes, the most significant first (introduction, "Byte order and checks"). -/
def wordOf (hi lo : Byte) : Word := hi ++ lo

/-- The two bytes of a word, the most significant first. -/
def bytesOf (w : Word) : List Byte := [w.extractLsb' 8 8, w.extractLsb' 0 8]

end Sys2Proof
end

