-- ==== Sys2Proof/Config.lean ====
section
/-! DEFINITION. What the part fixes (times and sizes the spec states once) and the one free value of
the spec: the Relay Engine's random draws. -/

namespace Sys2Proof.Config

/-- The frame time (section 1.2). -/
def frameTicks : Nat := 20

/-- Ticks in a day of network time (introduction, "Time units"). -/
def dayTicks : Nat := 8640000

/-- Ticks in a half-hour grid slot (R86). -/
def slotTicks : Nat := 180000

/-- Places in the Heard Table (section 3.1). -/
def heardPlaces : Nat := 64

/-- Slots in the window table (section 6.1). -/
def windowSlots : Nat := 24

/-- Elapsed seconds an assembly may take (R91). -/
def assemblySeconds : Nat := 900

/-- Age at which a step candidate is dropped (R76). -/
def candidateTicks : Nat := 6000

/-- Elapsed seconds of the TIME_STEP hold (R151). -/
def stepHoldSeconds : Nat := 300

/-- Seconds between periodic records (R199). -/
def periodicSeconds : Nat := 60

/-- The most a 16-bit counter or a limited countdown holds. -/
def most16 : Nat := 65535

/-- Crystal periods in one tick: 8.192 MHz times 10 ms. -/
def crystalPerTick : Nat := 81920

/-- The generator's draws (R59): a free value. `draw slot noise n` is the `n`-th draw of a generator
started from stagger slot `slot` and line noise `noise`. It has no body: the spec says that the
draws are independent and uniform, and no more. The range of each use is set where it is used. -/
opaque draw : Nat → Rat → Nat → Nat

end Sys2Proof.Config
end

