-- ==== Sys2Proof/Syntax.lean ====
section
/-! DEFINITION. The commands of the Wepora 540: one constructor of `Instr` for each row of
spec/opcode_table.json. The table gives its rows no bits and no operands; a command carries what its
rules say the event brings from outside (a level on a pin, the bytes of a frame, the store's answer)
or which place or channel it is about, and nothing that the part's own state already tells. -/

namespace Sys2Proof

/-- One of the six load relay channels. -/
inductive Channel where
  | ch1 | ch2 | ch3 | ch4 | ch5 | ch6
deriving DecidableEq, Repr

/-- The level of a relay channel. -/
inductive Level where
  | off | on
deriving DecidableEq, Repr

/-- The level at a local input pin: asserted while the pin is held low, released while it stands
high (section 9.4). -/
inductive Contact where
  | asserted | released
deriving DecidableEq, Repr

/-- What one read attempt met on the I2C pair (R185): after how many clock pulses SDA was found high
(0: it was high at once), whether each of the four bytes the loader sends was acknowledged, and
the data bytes the store gave. -/
structure StoreAnswer where
  pulsesToFree : Nat
  ackDeviceWrite : Bool
  ackWordHigh : Bool
  ackWordLow : Bool
  ackDeviceRead : Bool
  bytes : List Byte
deriving DecidableEq, Repr

/-- The commands, in the order of spec/opcode_table.json.
Levels on the line are in dB above the carrier threshold; a phase within a tick is in crystal
periods. -/
inductive Instr where
  /-- COLD_RESTART (R193). -/
  | coldRestart
  /-- WARM_RESTART (R193). -/
  | warmRestart
  /-- SUPPLY_FAILURE (R193). -/
  | supplyFailure
  /-- NRESET_ASSERTED (R193). -/
  | nresetAsserted
  /-- VHOLD_LOSS (R193). -/
  | vholdLoss
  /-- RETAINED_CLOCK_TICK (R67). -/
  | retainedClockTick
  /-- READ_ATTEMPT_END (R186): the store's answer, the line level sampled for the generator during
  the read (R59, R184), and whether VHOLD stands at or above its holding level (R193). -/
  | readAttemptEnd (answer : StoreAnswer) (noise : Rat) (vholdHolds : Bool)
  /-- READ_RETRY (R186). -/
  | readRetry
  /-- START_MARK (R2). -/
  | startMark
  /-- RECEPTION_END (R2): the bytes taken and the sum of their signal levels (R7). -/
  | receptionEnd (bytes : List Byte) (levelSum : Rat)
  /-- TRUNCATED_FRAME (R4). -/
  | truncatedFrame
  /-- CARRIER_APPEARS (R9). -/
  | carrierAppears
  /-- CLEAN_TICK (R8, R9): the in-band level measured over the tick just ended. -/
  | cleanTick (level : Rat)
  /-- ENTRY_FALLS_DUE (R49): the entry's place in the Heard Table. -/
  | entryFallsDue (place : Nat)
  /-- BACKOFF_END (R52). -/
  | backoffEnd
  /-- TRANSMISSION_COMPLETION (R13). -/
  | transmissionCompletion
  /-- ENTRY_EXPIRY (R58): the entry's place in the Heard Table. -/
  | entryExpiry (place : Nat)
  /-- CLOCK_ADVANCE (R63). -/
  | clockAdvance
  /-- HOLD_COUNTDOWN_EXPIRY (R66). -/
  | holdCountdownExpiry
  /-- LOST_COUNTDOWN_EXPIRY (R66). -/
  | lostCountdownExpiry
  /-- ASSEMBLY_TIMEOUT (R92). -/
  | assemblyTimeout
  /-- DELAY_END (R130). -/
  | delayEnd (channel : Channel)
  /-- RUN_END (R131). -/
  | runEnd (channel : Channel)
  /-- PORTION_END (R135). -/
  | portionEnd (channel : Channel)
  /-- SILENCE_EXPIRY (R150). -/
  | silenceExpiry
  /-- STEP_HOLD_EXPIRY (R151). -/
  | stepHoldExpiry
  /-- MAINS_CROSSING (R152): where in the present tick the crossing lies. -/
  | mainsCrossing (phase : Nat)
  /-- MAINS_NO_CROSSING (R152). -/
  | mainsNoCrossing
  /-- MAINS_FREQ_RAISE (R153). -/
  | mainsFreqRaise
  /-- MAINS_FREQ_CLEAR (R153). -/
  | mainsFreqClear
  /-- RETURN_COUNTDOWN_EXPIRY (R160). -/
  | returnCountdownExpiry (channel : Channel)
  /-- DWELL_END (R172). -/
  | dwellEnd (channel : Channel)
  /-- QUALIFIED_ASSERTION (R175). -/
  | qualifiedAssertion (channel : Channel)
  /-- QUALIFIED_RELEASE (R176). -/
  | qualifiedRelease (channel : Channel)
  /-- FIRST_QUALIFICATION (R175): the level of the fifth stable sample. -/
  | firstQualification (channel : Channel) (sample : Contact)
  /-- STATUS_SECOND_END (R199). -/
  | statusSecondEnd
  /-- EMISSION_END (R199). -/
  | emissionEnd
  /-- LOCAL_INPUT_SAMPLE (R175): the sampled level. -/
  | localInputSample (channel : Channel) (sample : Contact)
deriving DecidableEq, Repr

end Sys2Proof
end

