-- ==== Sys2Proof/WellFormed.lean ====
section
/-! DEFINITION. Which command terms an event can be: the bounds their operands have by the spec. -/

namespace Sys2Proof

/-- The bounds of a command's operands. A reception ends with its 32nd byte (R2); an attempt in which
every byte was acknowledged and SDA was freed reads 66 bytes, any other reads none (R185); a place of the
Heard Table lies in 0 to 63 (section 3.1); a crossing lies within a tick. -/
def Instr.wellFormed : Instr → Bool
  | .readAttemptEnd a _ _ =>
    if a.pulsesToFree ≤ 9 && a.ackDeviceWrite && a.ackWordHigh && a.ackWordLow && a.ackDeviceRead then
      a.bytes.length == 66
    else a.bytes.length == 0
  | .receptionEnd bytes _ => 1 ≤ bytes.length && bytes.length ≤ 32
  | .entryFallsDue place | .entryExpiry place => place < Config.heardPlaces
  | .mainsCrossing phase => phase < Config.crystalPerTick
  | .coldRestart | .warmRestart | .supplyFailure | .nresetAsserted | .vholdLoss | .retainedClockTick
  | .readRetry | .startMark | .truncatedFrame | .carrierAppears | .cleanTick _ | .backoffEnd
  | .transmissionCompletion | .clockAdvance | .holdCountdownExpiry | .lostCountdownExpiry
  | .assemblyTimeout | .delayEnd _ | .runEnd _ | .portionEnd _ | .silenceExpiry | .stepHoldExpiry
  | .mainsNoCrossing | .mainsFreqRaise | .mainsFreqClear | .returnCountdownExpiry _ | .dwellEnd _
  | .qualifiedAssertion _ | .qualifiedRelease _ | .firstQualification _ _ | .statusSecondEnd
  | .emissionEnd | .localInputSample _ _ => true

end Sys2Proof
end

