-- ==== Sys2Proof/Decode.lean ====
section
/-! DEFINITION. The part has no instruction decoder: it takes events. No row of spec/opcode_table.json
gives a command any bits (98_reader.md counts 0 rows with fixed bits and 0 with fields), so no word
spells a command. -/

namespace Sys2Proof

/-- The command that a word spells by the table's bits: none, since the table gives no row bits. -/
def decodeTableWord (_nbits _w : Nat) : Option Instr := none

end Sys2Proof
end

