-- ==== Sys2Proof/Machine/State.lean ====
section
/-! DEFINITION. The state of the Wepora 540, block by block, as plain data; the reasons a step may
stop; and the state right after a cold restart. -/

namespace Sys2Proof.Machine

/-! ## Six like things -/

/-- One thing for each of the six channels. -/
structure Six (α : Type) where
  ch1 : α
  ch2 : α
  ch3 : α
  ch4 : α
  ch5 : α
  ch6 : α
deriving DecidableEq, Repr

/-- The thing of one channel. -/
def Six.get {α : Type} (v : Six α) : Channel → α
  | .ch1 => v.ch1 | .ch2 => v.ch2 | .ch3 => v.ch3
  | .ch4 => v.ch4 | .ch5 => v.ch5 | .ch6 => v.ch6

/-- Replace the thing of one channel. -/
def Six.set {α : Type} (v : Six α) (c : Channel) (x : α) : Six α :=
  match c with
  | .ch1 => { v with ch1 := x } | .ch2 => { v with ch2 := x } | .ch3 => { v with ch3 := x }
  | .ch4 => { v with ch4 := x } | .ch5 => { v with ch5 := x } | .ch6 => { v with ch6 := x }

/-- The same thing for every channel. -/
def Six.all {α : Type} (x : α) : Six α := ⟨x, x, x, x, x, x⟩

/-! ## The supply (R193) -/

/-- What the supply and the reset pin are doing, and the retention mark.
`crystalTicks` counts the crystal's ticks through a supply interruption, in place of the elapsed
timebase (R67). -/
structure Power where
  vddUp : Bool
  nresetLow : Bool
  mark : Bool
  crystalTicks : Nat
deriving DecidableEq, Repr

/-! ## The Line Interface (section 1.1) -/

/-- The receiver (R1, R2); a copy being gathered goes with RECEIVING. -/
inductive Receiver where
  | off
  | listening
  | receiving (bytes : List Byte) (levelSum : Rat) (frameStart : Nat)
deriving DecidableEq, Repr

/-- The transmit slot (R10): a copy being sent goes with SENDING. -/
inductive TransmitSlot where
  | idle
  | sending (copy : List Byte) (start : Nat)
deriving DecidableEq, Repr

/-- The line indication (R9). -/
inductive Indication where
  | busy | quiet
deriving DecidableEq, Repr

/-- The Line Interface. `noise` is the noise estimate in dB above the carrier threshold. R8 and R9 imply
the last two by what they call a clean tick: `cleanFrom` is the tick boundary by which every reception and
transmission that is over had ended, and every carrier before the last one had come, and `carrierAt` is the
elapsed tick at which the last carrier appeared. -/
structure Line where
  receiver : Receiver
  slot : TransmitSlot
  indication : Indication
  noise : Rat
  cleanFrom : Nat
  carrierAt : Option Nat
deriving DecidableEq, Repr

/-! ## The Origin Table (section 2.1) -/

/-- A serial window: the newest serial accepted, and the distances 1 to 32 below it that have been
accepted too, in rising order. -/
structure SerialWindow where
  highest : Word
  seen : List Nat
deriving DecidableEq, Repr

/-- An entry of the Origin Table; `window` is absent while the entry is empty. -/
structure OriginEntry where
  id : Byte
  window : Option SerialWindow
deriving DecidableEq, Repr

/-- The Origin Table and the dropped windows kept apart (R22). -/
structure OriginTable where
  entries : List OriginEntry
  dropped : List OriginEntry
deriving DecidableEq, Repr

/-! ## The Relay Engine (sections 3.1, 3.4 and 3.7) -/

/-- Where a Heard Table entry stands in relaying, with what it holds only there. -/
inductive RelayState where
  | pending (copy : List Byte) (receptionEnd due : Nat)
  | sending (copy : List Byte) (receptionEnd : Nat)
  | relayed
  | suppressed
  | noRelay
deriving DecidableEq, Repr

/-- A Heard Table entry. -/
structure HeardEntry where
  origin : Byte
  serial : Word
  relay : RelayState
  echoes : Nat
  firstHeard : Nat
deriving DecidableEq, Repr

/-- The access state of the transmit choice (section 3.4). -/
inductive Access where
  | lineBusy
  | lineQuiet
  | backoff (ends : Nat)
  | transmitting
deriving DecidableEq, Repr

/-- The random generator (R59): what it was started from, and how many draws it has made. -/
structure Generator where
  slot : Nat
  noise : Rat
  drawn : Nat
deriving DecidableEq, Repr

/-- The Relay Engine; `heard` lists the 64 places, `none` for a free one. `dueTo` is the last elapsed tick
at which a falling due was taken: R49 implies it, since a report of the line may come at a due tick before
or after the falling due. -/
structure Relay where
  heard : List (Option HeardEntry)
  access : Access
  generator : Generator
  dueTo : Nat
deriving DecidableEq, Repr

/-! ## The Timekeeper (sections 4.2 to 4.6) -/

/-- The day classes. -/
inductive DayClass where
  | workday | saturday | sundayHoliday | special
deriving DecidableEq, Repr

/-- The time states (section 4.3). -/
inductive TimeState where
  | unset | synced | holdover | lost
deriving DecidableEq, Repr

/-- A moment of network time: a day and a tick of day. -/
structure Moment where
  day : Word
  tick : Nat
deriving DecidableEq, Repr

/-- The step candidate (R76). -/
structure Candidate where
  estimate : Moment
  heldAt : Nat
deriving DecidableEq, Repr

/-- The Timekeeper. A countdown that is not running stands at 0. -/
structure Timekeeper where
  clock : Moment
  today : DayClass
  tomorrow : Option DayClass
  slew : Int
  candidate : Option Candidate
  state : TimeState
  hold : Nat
  lost : Nat
deriving DecidableEq, Repr

/-! ## The Program Collector (sections 5.1 and 5.2) -/

/-- The band classes, in rising rank. -/
inductive BandClass where
  | boost | offpeak | shoulder | peak | critical
deriving DecidableEq, Repr

/-- A band (R85), as clamped. -/
structure Band where
  cls : BandClass
  register : Nat
  action : Six Level
deriving DecidableEq, Repr

/-- A checked and clamped program (R84 to R88): the sixteen bands by number, and the grid by day
class and slot, 48 slots to a class. -/
structure Program where
  id : Word
  activation : Moment
  defaultBand : Nat
  gridEnable : Bool
  bands : List Band
  grid : List Nat
deriving DecidableEq, Repr

/-- The staging record (section 5.2): the data stored for each of the eight indices. -/
structure Staging where
  id : Word
  segments : List (Option (List Byte))
  countdown : Nat
deriving DecidableEq, Repr

/-- The Program Collector. -/
structure Collector where
  staging : Option Staging
  next : Option Program
  active : Option Program
deriving DecidableEq, Repr

/-! ## The Tariff Resolver (section 6.1) -/

/-- How a window combines with the grid. -/
inductive WindowMode where
  | overlay | replace
deriving DecidableEq, Repr

/-- A day and a minute of network time (R103). -/
structure Minute where
  day : Word
  minute : Nat
deriving DecidableEq, Repr

/-- An event window (section 6.2). -/
structure Window where
  start : Minute
  stop : Minute
  band : Nat
  mode : WindowMode
  setOrigin : Byte
  setSerial : Word
deriving DecidableEq, Repr

/-- The resolved band as last handed on: its number and the program it was taken from. A program is
told from every other by its id (R94). -/
structure ResolvedBand where
  number : Nat
  program : Word
deriving DecidableEq, Repr

/-- The Tariff Resolver; `windows` lists the 24 slots, `none` for a free one. -/
structure Resolver where
  windows : List (Option Window)
  band : Option ResolvedBand
  index : Nat
deriving DecidableEq, Repr

/-! ## The channels (sections 7.1, 8.1, 8.7 and 9.1) -/

/-- A run remaining: indefinite, or a number of seconds. -/
inductive Run where
  | indefinite
  | left (seconds : Nat)
deriving DecidableEq, Repr

/-- The phase of a FORCE_ON or FORCE_OFF; in DELAY the run is the length still to come. -/
inductive Phase where
  | delay (remaining : Nat) (run : Run)
  | run (run : Run)
deriving DecidableEq, Repr

/-- The parameters of a staged cycle (R134): seconds off and on, minutes of duration. -/
structure StagedCycle where
  off : Nat
  on : Nat
  duration : Nat
deriving DecidableEq, Repr

/-- The cycle fields of an override record. -/
structure Cycle where
  off : Nat
  on : Nat
  portion : Level
  portionLeft : Nat
  run : Run
  staged : Option StagedCycle
  finish : Bool
deriving DecidableEq, Repr

/-- The kind of an override with the fields that go with it; `force .on` is FORCE_ON and
`force .off` is FORCE_OFF. -/
inductive Imposed where
  | none
  | force (level : Level) (phase : Phase)
  | cycle (fields : Cycle)
deriving DecidableEq, Repr

/-- Who last wrote an override record. -/
inductive Source where
  | remote (origin : Byte) (serial : Word)
  | boost
deriving DecidableEq, Repr

/-- An override record (section 7.1). -/
structure Override where
  imposed : Imposed
  source : Option Source
deriving DecidableEq, Repr

/-- The channel states (section 8.7); the return countdown goes with RETURN_WAIT. -/
inductive ChannelState where
  | normal
  | fallbackHold
  | returnWait (countdown : Nat)
  | releaseWait
deriving DecidableEq, Repr

/-- The resolved band as a controller was last handed it (R115). -/
structure HandedBand where
  number : Nat
  cls : BandClass
  action : Level
deriving DecidableEq, Repr

/-- The qualification of a local input (R175). -/
inductive Qualification where
  | unknown | released | asserted
deriving DecidableEq, Repr

/-- A local input: its qualification, candidate level and stable count. -/
structure LocalInput where
  qualification : Qualification
  candidate : Contact
  stable : Nat
deriving DecidableEq, Repr

/-- All that the blocks hold for one channel: the Channel Controller's override record, channel
state, resolved band and level last handed (none before the first since the restart, R143); the
Output Stage's output, deferred request, dwell and local input; the Fallback Monitor's FORCED
record. `dwellSet` and `returnSet` say that the dwell and the return countdown were set at the present
elapsed tick, when R172 and R160 do not decrease them. -/
structure ChannelUnit where
  override : Override
  state : ChannelState
  band : Option HandedBand
  handed : Option Level
  output : Level
  deferred : Option Level
  dwell : Nat
  input : LocalInput
  forced : Bool
  setter : Option (Byte × Word)
  dwellSet : Bool
  returnSet : Bool
deriving DecidableEq, Repr

/-! ## The Fallback Monitor (section 8.1) -/

/-- The five station conditions. -/
inductive Condition where
  | timeInvalid | noProgram | silence | mainsFreq | timeStep
deriving DecidableEq, Repr

/-- A set of station conditions. -/
structure Conditions where
  timeInvalid : Bool
  noProgram : Bool
  silence : Bool
  mainsFreq : Bool
  timeStep : Bool
deriving DecidableEq, Repr

/-- How the mains frequency is being classed at present. -/
inductive MainsClass where
  | inside | outside
deriving DecidableEq, Repr

/-- The mains measurement (R152): the classification and the tick of its last change; the last
crossing in crystal periods of the elapsed timebase, since cycles are timed to a fraction of a tick;
and how many spans of 100 ms have passed since it without a crossing. -/
structure Mains where
  cls : MainsClass
  changedAt : Nat
  lastCrossing : Nat
  spans : Nat
deriving DecidableEq, Repr

/-- The Fallback Monitor's station part; `silence` is `none` while the countdown is stopped.
`stepHoldSet` says that the step hold was set at the present elapsed tick, when R151 does not decrease
it. -/
structure Monitor where
  conditions : Conditions
  silence : Option Nat
  mains : Mains
  stepHold : Nat
  stepHoldSet : Bool
deriving DecidableEq, Repr

/-! ## The Configuration Loader (section 10.1) -/

/-- The configured use of a local input. -/
inductive InputFunction where
  | none | hold | boost
deriving DecidableEq, Repr

/-- A channel record of the configuration (R190). -/
structure ChannelConfig where
  used : Bool
  safe : Level
  noAutoReturn : Bool
  input : InputFunction
  mask : Conditions
  returnBase : Nat
  returnSpread : Nat
  minDwell : Nat
deriving DecidableEq, Repr

/-- The configuration values, clamped (R187 to R190). -/
structure Configuration where
  relayEnable : Bool
  relaySpread : Nat
  suppression : Nat
  heardMemory : Nat
  ageLimit : Nat
  beaconMaxAge : Nat
  stepThreshold : Nat
  holdLimit : Nat
  lostLimit : Nat
  silenceLimit : Nat
  stagger : Nat
  fallbackRegister : Nat
  boostLength : Nat
  origins : List Byte
  groups : List Byte
  channels : Six ChannelConfig
deriving DecidableEq, Repr

/-- The load state; the configuration values are held in CONFIGURED only. -/
inductive Load where
  | loading
  | configured (values : Configuration)
  | unconfigured
deriving DecidableEq, Repr

/-- What the loader does on SCL and SDA in an attempt (R185): a clock pulse with SDA released, the
conditions of the bus, the device address for writing or reading, a word address byte sent, and a byte
read and acknowledged or not. -/
inductive BusAction where
  | pulse
  | start
  | repeatedStart
  | stop
  | address (device : BitVec 7) (reading : Bool)
  | send (byte : Byte)
  | receive (byte : Byte) (acknowledged : Bool)
deriving DecidableEq, Repr

/-- The Configuration Loader. `retryAt` is the tick at which a further attempt begins (R186), `none`
while an attempt is under way or loading is over; `bus` is what the last attempt that ended did on
the I2C pair. -/
structure Loader where
  load : Load
  attempts : Nat
  image : Option (List Byte)
  retryAt : Option Nat
  bus : List BusAction
deriving DecidableEq, Repr

/-! ## The Output Stage's station part and the Status Port (sections 9.1 and 11.2) -/

/-- A record on the serial status line and the tick at which its first character started. -/
structure Emission where
  record : List Byte
  startedAt : Nat
deriving DecidableEq, Repr

/-- The Status Port; `emission` is `none` in IDLE. -/
structure StatusPort where
  emission : Option Emission
  changePending : Bool
  periodic : Nat
deriving DecidableEq, Repr

/-- The sixteen counters (R201), in the order of its table. -/
structure Counters where
  rxOk : Nat
  rxCheckFail : Nat
  rxForeign : Nat
  rxStale : Nat
  rxAged : Nat
  echoes : Nat
  relayed : Nat
  suppressed : Nat
  relayDropped : Nat
  ordersApplied : Nat
  ordersRefused : Nat
  progComplete : Nat
  progDiscarded : Nat
  timeAccepted : Nat
  timeRejected : Nat
  steps : Nat
deriving DecidableEq, Repr

/-- The names of the sixteen counters. -/
inductive Counter where
  | rxOk
  | rxCheckFail
  | rxForeign
  | rxStale
  | rxAged
  | echoes
  | relayed
  | suppressed
  | relayDropped
  | ordersApplied
  | ordersRefused
  | progComplete
  | progDiscarded
  | timeAccepted
  | timeRejected
  | steps
deriving DecidableEq, Repr

/-! ## The whole part -/

/-- The state of the part. `pending` is the queue of commands that wait, first in, first out.
`meetings` is the model's own: which of the events that meet is taken first, and whether VHOLD holds at the end
of a read attempt that no store answers. Each of these takes one number from its front, and an empty list
answers 0; nothing constrains it. `register` is the register
index the Output Stage drives. -/
structure State where
  pending : List Instr
  meetings : List Nat
  power : Power
  elapsed : Nat
  line : Line
  origins : OriginTable
  relay : Relay
  time : Timekeeper
  programs : Collector
  resolver : Resolver
  channels : Six ChannelUnit
  register : Nat
  monitor : Monitor
  loader : Loader
  status : StatusPort
  counters : Counters
deriving DecidableEq, Repr

/-- No command faults: the rules give every command an effect, or none, in every state. Safe. -/
inductive Fault where
deriving DecidableEq, Repr

/-- Why a command has no meaning. -/
inductive Refusal where
  /-- Raised by `exec` for a command whose meaning is not written; no arm raises it now. Safe: the
  model stops where the part would go on. -/
  | notModelled (mnemonic : String)
deriving DecidableEq, Repr

/-! ## Restart states -/

/-- No station condition active. -/
def Conditions.clear : Conditions := ⟨false, false, false, false, false⟩

/-- R1. The noise estimate is the carrier threshold level itself. -/
def Line.restart : Line := ⟨.off, .idle, .busy, 0, 0, none⟩

/-- R40 and R59. -/
def Relay.restart : Relay := ⟨List.replicate 64 none, .lineBusy, ⟨0, 0, 0⟩, 0⟩

/-- R65. -/
def Timekeeper.cold : Timekeeper := ⟨⟨0, 0⟩, .workday, none, 0, none, .unset, 0, 0⟩

/-- R22: a cold restart keeps no window and no dropped window; the entries are built when the
configuration is loaded (R21). -/
def OriginTable.cold : OriginTable := ⟨[], []⟩

/-- R89. -/
def Collector.cold : Collector := ⟨none, none, none⟩

/-- R102. -/
def Resolver.cold : Resolver := ⟨List.replicate 24 none, none, 1⟩

/-- R122, R147, R163 and R170. -/
def ChannelUnit.restart : ChannelUnit :=
  { override := ⟨.none, none⟩, state := .fallbackHold, band := none, handed := none, output := .off,
    deferred := none, dwell := 0, input := ⟨.unknown, .released, 0⟩, forced := false, setter := none,
    dwellSet := false, returnSet := false }

/-- R147. -/
def Monitor.restart : Monitor := ⟨.clear, none, ⟨.inside, 0, 0, 0⟩, 0, false⟩

/-- R184: loading begins, with its first attempt begun (R185). -/
def Loader.restart : Loader := ⟨.loading, 1, none, none, []⟩

/-- R197. -/
def StatusPort.restart : StatusPort := ⟨none, false, 60⟩

/-- R201. -/
def Counters.restart : Counters := ⟨0, 0, 0, 0, 0, 0, 0, 0, 0, 0, 0, 0, 0, 0, 0, 0⟩

/-- The part right after a cold restart (R193, R194), with nothing in its queue. -/
def State.reset : State :=
  { pending := [], meetings := [], power := ⟨true, false, false, 0⟩, elapsed := 0,
    line := .restart, origins := .cold, relay := .restart, time := .cold, programs := .cold,
    resolver := .cold, channels := .all .restart, register := 1, monitor := .restart,
    loader := .restart, status := .restart, counters := .restart }

/-! ## One field written -/

/-- The queue replaced. -/
def State.setPending (s : State) (x : List Instr) : State := { s with pending := x }
/-- The meeting order replaced. -/
def State.setMeetings (s : State) (x : List Nat) : State := { s with meetings := x }
/-- The supply replaced. -/
def State.setPower (s : State) (x : Power) : State := { s with power := x }
/-- The elapsed timebase replaced. -/
def State.setElapsed (s : State) (x : Nat) : State := { s with elapsed := x }
/-- The Line Interface replaced. -/
def State.setLine (s : State) (x : Line) : State := { s with line := x }
/-- The Origin Table replaced. -/
def State.setOrigins (s : State) (x : OriginTable) : State := { s with origins := x }
/-- The Relay Engine replaced. -/
def State.setRelay (s : State) (x : Relay) : State := { s with relay := x }
/-- The Timekeeper replaced. -/
def State.setTime (s : State) (x : Timekeeper) : State := { s with time := x }
/-- The Program Collector replaced. -/
def State.setPrograms (s : State) (x : Collector) : State := { s with programs := x }
/-- The Tariff Resolver replaced. -/
def State.setResolver (s : State) (x : Resolver) : State := { s with resolver := x }
/-- The channels replaced. -/
def State.setChannels (s : State) (x : Six ChannelUnit) : State := { s with channels := x }
/-- The driven register index replaced. -/
def State.setRegister (s : State) (x : Nat) : State := { s with register := x }
/-- The Fallback Monitor replaced. -/
def State.setMonitor (s : State) (x : Monitor) : State := { s with monitor := x }
/-- The Configuration Loader replaced. -/
def State.setLoader (s : State) (x : Loader) : State := { s with loader := x }
/-- The Status Port replaced. -/
def State.setStatus (s : State) (x : StatusPort) : State := { s with status := x }
/-- The counters replaced. -/
def State.setCounters (s : State) (x : Counters) : State := { s with counters := x }

end Sys2Proof.Machine
end

