-- ==== Sys2Proof/Machine/Ops.lean ====
section
/-! DEFINITION. The operations every block shares: the serial comparison, the check, moments of
network time, the sixteen counters, events that meet, and the conditions under which the part acts
at all. -/

namespace Sys2Proof.Machine

/-! ## Numbers -/

/-- A value brought into a range (introduction, "Ranges and clamps"). -/
def clamp (low high n : Nat) : Nat := max low (min high n)

/-- A signed value brought into a range. -/
def clampInt (low high n : Int) : Int := max low (min high n)

/-- `a` is newer than `b` by the serial comparison (introduction, "Serial comparison"). -/
def newer (a b : Word) : Bool := decide (1 ≤ (a - b).toNat ∧ (a - b).toNat ≤ 32767)

/-- How far `a` is older than `b`, when it is not newer or equal. -/
def olderBy (a b : Word) : Nat := 65536 - (a - b).toNat

/-- The stagger of a spread of so many minutes at a slot, in whole seconds (R128, R160). -/
def stagger (minutes slot : Nat) : Nat := minutes * 60 * slot / 256

/-! ## The check (R6) -/

/-- One step of the check's register. -/
def crcBit (r : Word) : Word := if r.msb then (r <<< 1) ^^^ 0x1021#16 else r <<< 1

/-- One covered byte taken into the register. -/
def crcByte (r : Word) (b : Byte) : Word :=
  crcBit (crcBit (crcBit (crcBit (crcBit (crcBit (crcBit (crcBit (r ^^^ (b ++ 0#8)))))))))

/-- The check value of the covered bytes, in line order. -/
def crc16 (bytes : List Byte) : Word := bytes.foldl crcByte 0xFFFF#16

/-! ## Moments of network time -/

/-- The difference of two days, read as a signed value (section 4.2). -/
def dayDiff (a b : Word) : Int := (a - b).toInt

/-- The clock has reached a moment (R95, R103). -/
def Moment.hasReached (clock m : Moment) : Bool :=
  decide (0 < dayDiff clock.day m.day ∨ (dayDiff clock.day m.day = 0 ∧ m.tick ≤ clock.tick))

/-- The moment so many ticks later (R63, R77). -/
def Moment.later (m : Moment) (ticks : Nat) : Moment :=
  ⟨m.day + BitVec.ofNat 16 ((m.tick + ticks) / Config.dayTicks), (m.tick + ticks) % Config.dayTicks⟩

/-- The moment a minute begins (R103). -/
def Minute.moment (m : Minute) : Moment := ⟨m.day, 6000 * m.minute⟩

/-- One minute is before another (R103). -/
def Minute.before (a b : Minute) : Bool :=
  decide (0 < dayDiff b.day a.day ∨ (dayDiff b.day a.day = 0 ∧ a.minute < b.minute))

/-- SYNCED and HOLDOVER are the valid time states (section 4.3). -/
def TimeState.valid : TimeState → Bool
  | .synced | .holdover => true
  | .unset | .lost => false

/-- An elapsed second ends at every 100th tick of the count (R62). -/
def endsSecond (tick : Nat) : Bool := decide (0 < tick ∧ tick % 100 = 0)

/-! ## Counters and changes -/

/-- A 16-bit counter increased; it stays at 65535 (R201). -/
def saturate (count by_ : Nat) : Nat := max count (min Config.most16 (count + by_))

/-- A counter increased by so many events. -/
def Counters.add (c : Counters) (k : Counter) (n : Nat) : Counters :=
  match k with
  | .rxOk => { c with rxOk := saturate c.rxOk n }
  | .rxCheckFail => { c with rxCheckFail := saturate c.rxCheckFail n }
  | .rxForeign => { c with rxForeign := saturate c.rxForeign n }
  | .rxStale => { c with rxStale := saturate c.rxStale n }
  | .rxAged => { c with rxAged := saturate c.rxAged n }
  | .echoes => { c with echoes := saturate c.echoes n }
  | .relayed => { c with relayed := saturate c.relayed n }
  | .suppressed => { c with suppressed := saturate c.suppressed n }
  | .relayDropped => { c with relayDropped := saturate c.relayDropped n }
  | .ordersApplied => { c with ordersApplied := saturate c.ordersApplied n }
  | .ordersRefused => { c with ordersRefused := saturate c.ordersRefused n }
  | .progComplete => { c with progComplete := saturate c.progComplete n }
  | .progDiscarded => { c with progDiscarded := saturate c.progDiscarded n }
  | .timeAccepted => { c with timeAccepted := saturate c.timeAccepted n }
  | .timeRejected => { c with timeRejected := saturate c.timeRejected n }
  | .steps => { c with steps := saturate c.steps n }

/-- One event counted (R201). -/
def State.count (s : State) (k : Counter) : State := s.setCounters (s.counters.add k 1)

/-- A reported change sets change pending (R198). -/
def State.noteChange (s : State) : State := s.setStatus { s.status with changePending := true }

/-! ## Whether the part acts -/

/-- VDD stands above 2.8 V and NRESET is high, so the blocks are not stopped (R193). -/
def State.running (s : State) : Bool := s.power.vddUp && !s.power.nresetLow

/-- What a block does while the part runs; while it is stopped the event does not occur. -/
def State.whenRunning (s : State) (f : State) : State := if s.running then f else s

/-- What a block does while the part runs CONFIGURED, with the configuration values; in every other
state the event does not occur (R192 and each block's own rule for UNCONFIGURED). -/
def State.whenConfigured (s : State) (f : Configuration → State) : State :=
  if s.running then
    match s.loader.load with
    | .configured cfg => f cfg
    | _ => s
  else s

/-! ## Events that meet -/

/-- The items in the order that a number picks, every order being some number's. -/
def arrangeFrom {α : Type} : Nat → Nat → List α → List α
  | 0, _, xs => xs
  | _ + 1, _, [] => []
  | fuel + 1, k, x :: xs =>
    let at_ := k % (xs.length + 1)
    ((x :: xs).getD at_ x) :: arrangeFrom fuel (k / (xs.length + 1)) ((x :: xs).eraseIdx at_)

/-- The items in the order that a number picks; 0 picks the order given. -/
def arrange {α : Type} (k : Nat) (xs : List α) : List α := arrangeFrom xs.length k xs

/-- The number of the next meeting. -/
def State.meeting (s : State) : Nat := s.meetings.headD 0

/-- The next meeting's number taken. -/
def State.met (s : State) : State := s.setMeetings s.meetings.tail

/-- Several blocks act on one event, each whole, in an order the spec leaves open ("Events that
meet" in each chapter): the order is the next meeting's. -/
def State.inSomeOrder (s : State) (acts : List (State → State)) : State :=
  (arrange s.meeting acts).foldl (fun s act => act s) s.met

/-! ## One channel's unit -/

/-- What an event does to one channel: the unit as it becomes, whether a reported change occurred
(R198), and how often the order was counted applied and refused for the channel (R125). -/
structure Work where
  unit : ChannelUnit
  changed : Bool
  applied : Nat
  refused : Nat
deriving DecidableEq, Repr

/-- Nothing done yet. -/
def Work.idle (u : ChannelUnit) : Work := ⟨u, false, 0, 0⟩

/-- The unit replaced, nothing reported. -/
def Work.put (w : Work) (u : ChannelUnit) : Work := { w with unit := u }

/-- The unit replaced, and the change reported. -/
def Work.report (w : Work) (u : ChannelUnit) : Work := { w with unit := u, changed := true }

/-- The order counted as applied for the channel. -/
def Work.countApplied (w : Work) : Work := { w with applied := w.applied + 1 }

/-- The order counted as refused for the channel. -/
def Work.countRefused (w : Work) : Work := { w with refused := w.refused + 1 }

/-- An event at one channel. -/
def State.onChannel (s : State) (c : Channel) (f : ChannelUnit → Work) : State :=
  let w := f (s.channels.get c)
  { s with
    channels := s.channels.set c w.unit
    status := { s.status with changePending := s.status.changePending || w.changed }
    counters := (s.counters.add .ordersApplied w.applied).add .ordersRefused w.refused }

/-- The six channels in order. -/
def channelList : List Channel := [.ch1, .ch2, .ch3, .ch4, .ch5, .ch6]

/-- An event at every channel, each on its own. -/
def State.onEachChannel (s : State) (f : Channel → ChannelUnit → Work) : State :=
  channelList.foldl (fun s c => s.onChannel c (f c)) s

/-! ## Conditions -/

/-- Whether a condition is active in the set. -/
def Conditions.get (v : Conditions) : Condition → Bool
  | .timeInvalid => v.timeInvalid
  | .noProgram => v.noProgram
  | .silence => v.silence
  | .mainsFreq => v.mainsFreq
  | .timeStep => v.timeStep

/-- One condition written. -/
def Conditions.set (v : Conditions) (k : Condition) (x : Bool) : Conditions :=
  match k with
  | .timeInvalid => { v with timeInvalid := x }
  | .noProgram => { v with noProgram := x }
  | .silence => { v with silence := x }
  | .mainsFreq => { v with mainsFreq := x }
  | .timeStep => { v with timeStep := x }

/-- A condition of the set is active and named by the mask (R157). -/
def Conditions.meets (active mask : Conditions) : Bool :=
  active.timeInvalid && mask.timeInvalid || active.noProgram && mask.noProgram ||
  active.silence && mask.silence || active.mainsFreq && mask.mainsFreq ||
  active.timeStep && mask.timeStep

end Sys2Proof.Machine
end

