-- ==== Sys2Proof/Machine/Channels.lean ====
section
/-! DEFINITION. One channel: its output under the dwell and the local input (chapter 9), its requested
level and override record (chapter 7), and its channel state (chapter 8). Every definition here acts on
the unit of one channel and cites the rule it follows. `cc` is the channel's configuration record and
`slot` the station's stagger slot. -/

namespace Sys2Proof.Machine

/-! ## The Output Stage -/

/-- A channel whose used flag is clear has its input function taken as NONE (R170). -/
def ChannelConfig.inputUse (cc : ChannelConfig) : InputFunction :=
  if cc.used then cc.input else .none

/-- The local input holds the output (R176). -/
def ChannelUnit.holdsOutput (cc : ChannelConfig) (u : ChannelUnit) : Bool :=
  cc.inputUse = .hold && u.input.qualification = .asserted

/-- The output changes: it takes the level, the dwell is set and no deferred request is left
(R172, R173); the change is reported. -/
def Work.drive (cc : ChannelConfig) (l : Level) (w : Work) : Work :=
  w.report { w.unit with output := l, deferred := none, dwell := 100 * cc.minDwell, dwellSet := true }

/-- A request handed without an entry into FALLBACK_HOLD (R173). -/
def Work.request (cc : ChannelConfig) (l : Level) (w : Work) : Work :=
  if l = w.unit.output then w.put { w.unit with deferred := none }
  else if w.unit.dwell = 0 && !w.unit.holdsOutput cc then w.drive cc l
  else w.put { w.unit with deferred := some l }

/-- The safe level handed together with an entry into FALLBACK_HOLD (R174). -/
def Work.fallbackEntry (cc : ChannelConfig) (w : Work) : Work :=
  if w.unit.holdsOutput cc then w.request cc cc.safe
  else if cc.safe = w.unit.output then w.put { w.unit with deferred := none }
  else w.drive cc cc.safe

/-- The first request after a restart, which sets the output straight (R171). -/
def Work.straight (cc : ChannelConfig) (l : Level) (w : Work) : Work :=
  if l = w.unit.output then
    w.put { w.unit with deferred := none, dwell := 100 * cc.minDwell, dwellSet := true, handed := some l }
  else
    (w.drive cc l).put { (w.drive cc l).unit with handed := some l }

/-- The deferred request taken, where one is present and the input is not holding the output
(R172, R176). -/
def Work.takeDeferred (cc : ChannelConfig) (w : Work) : Work :=
  match w.unit.deferred with
  | some l => if w.unit.holdsOutput cc then w else w.drive cc l
  | none => w

/-- The dwell's decrease at an elapsed tick, and its end; a dwell set at this very tick takes its first
decrease at the next (R172). -/
def Work.dwellTick (cc : ChannelConfig) (w : Work) : Work :=
  if w.unit.dwell = 0 || w.unit.dwellSet then w
  else if w.unit.dwell = 1 then (w.put { w.unit with dwell := 0 }).takeDeferred cc
  else w.put { w.unit with dwell := w.unit.dwell - 1 }

/-! ## The requested level -/

/-- The band action for the channel; its safe level while the resolved band is none (R142). -/
def ChannelUnit.bandAction (cc : ChannelConfig) (u : ChannelUnit) : Level :=
  match u.band with
  | some b => b.action
  | none => cc.safe

/-- The band class is CRITICAL (R141, R142). -/
def ChannelUnit.bandCritical (u : ChannelUnit) : Bool :=
  match u.band with
  | some b => b.cls = .critical
  | none => false

/-- The combination of an override with a band action (R141). -/
def combine (o : Imposed) (action : Level) (critical : Bool) : Level :=
  match o with
  | .none => action
  | .force _ (.delay _ _) => action
  | .force .off (.run _) => .off
  | .force .on (.run _) => if critical then action else .on
  | .cycle c => match action with
    | .off => .off
    | .on => c.portion

/-- The requested level of a channel (R124, R141, R161). -/
def ChannelUnit.requested (cc : ChannelConfig) (u : ChannelUnit) : Level :=
  if cc.used then
    match u.state with
    | .normal => combine u.override.imposed (u.bandAction cc) u.bandCritical
    | .fallbackHold | .returnWait _ | .releaseWait => cc.safe
  else .off

/-- The requested level worked out afresh, and handed when it differs from the level last handed;
before the first level since the restart nothing is handed (R143). -/
def Work.rework (cc : ChannelConfig) (w : Work) : Work :=
  match w.unit.handed with
  | none => w
  | some l =>
    let l' := w.unit.requested cc
    if l' = l then w
    else (w.put { w.unit with handed := some l' }).request cc l'

/-! ## The override record -/

/-- The kind of an override, as the status record codes it: 0 NONE, 1 FORCE_ON, 2 FORCE_OFF,
3 CYCLE (section 12.8). -/
def Imposed.kind : Imposed → Nat
  | .none => 0
  | .force .on _ => 1
  | .force .off _ => 2
  | .cycle _ => 3

/-- The phase of an override, as the status record codes it: 0 absent, 1 DELAY, 2 RUN. -/
def Imposed.phase : Imposed → Nat
  | .none => 0
  | .force _ (.delay _ _) => 1
  | .force _ (.run _) => 2
  | .cycle _ => 2

/-- The record's kind and its fields written; a change of kind is reported (R123). -/
def Work.impose (o : Imposed) (w : Work) : Work :=
  if o.kind = w.unit.override.imposed.kind then
    w.put { w.unit with override := { w.unit.override with imposed := o } }
  else w.report { w.unit with override := { w.unit.override with imposed := o } }

/-- The source written (R126). -/
def Work.wroteBy (src : Source) (w : Work) : Work :=
  w.put { w.unit with override := { w.unit.override with source := some src } }

/-- The superseding test: the record's source is the same origin with a newer serial (R126). DESIGN CHOICE,
unsafe (log entry 30): serials exactly 32768 apart are older each than the other, so R126's sentence passes
the order and its table's fourth row refuses it; the model follows the sentence. -/
def supersededBy (src : Option Source) (origin : Byte) (serial : Word) : Bool :=
  match src with
  | some (.remote o s) => o = origin && newer s serial
  | _ => false

/-- A run remaining at a step, and whether it has reached 0 (R130). -/
def Run.tick : Run → Run × Bool
  | .indefinite => (.indefinite, false)
  | .left n => (.left (n - 1), n ≤ 1)

/-- A run of so many minutes; 0 means until cancelled (R128, R135). -/
def runOf (minutes : Nat) : Run := if minutes = 0 then .indefinite else .left (minutes * 60)

/-- A CYCLE whose portion has ended (R135); at a period boundary it may end, take the staged cycle or
repeat. -/
def Cycle.turn (c : Cycle) : Imposed :=
  match c.portion with
  | .off => .cycle { c with portion := .on, portionLeft := c.on }
  | .on =>
    if c.finish then .none
    else match c.staged with
      | some g => .cycle { c with off := g.off, on := g.on, portion := .off, portionLeft := g.off,
                                  run := runOf g.duration, staged := none }
      | none => .cycle { c with portion := .off, portionLeft := c.off }

/-- The step of a record at an elapsed second (R130), and whether the phase changed, the override
ended or the portion changed. -/
def Imposed.tick : Imposed → Imposed × Bool
  | .none => (.none, false)
  | .force l (.delay n r) =>
    if n ≤ 1 then (.force l (.run r), true) else (.force l (.delay (n - 1) r), false)
  | .force l (.run r) => if r.tick.2 then (.none, true) else (.force l (.run r.tick.1), false)
  | .cycle c =>
    if c.run.tick.2 then (.none, true)
    else if c.portionLeft ≤ 1 then (({ c with run := c.run.tick.1 } : Cycle).turn, true)
    else (.cycle { c with run := c.run.tick.1, portionLeft := c.portionLeft - 1 }, false)

/-- The controller's step of its record at an elapsed second (R130, R143). -/
def Work.recordTick (cc : ChannelConfig) (w : Work) : Work :=
  let t := w.unit.override.imposed.tick
  if t.2 then (w.impose t.1).rework cc else w.impose t.1

/-! ## The orders at one channel -/

/-- The orders that act on an override record, with their parameters as clamped (R127, R132, R136,
R138). Durations and delays are in minutes, portions in seconds. -/
inductive ChannelOrder where
  | switch (level : Level) (delay spread duration : Nat)
  | cycle (off on duration : Nat) (spread immediate : Bool)
  | adjust (minutes : Int)
  | cancel (finish : Bool)
deriving DecidableEq, Repr

/-- What a SWITCH writes, by the four cases of R128; `none` when it has expired on arrival. -/
def switchRecord (slot age : Nat) (level : Level) (delay spread duration : Nat) : Option Imposed :=
  let a := age / 100
  let d := delay * 60 + stagger spread slot
  if a < d then some (.force level (.delay (min Config.most16 (d - a)) (runOf duration)))
  else if duration = 0 then some (.force level (.run .indefinite))
  else if a - d < duration * 60 then some (.force level (.run (.left (duration * 60 - (a - d)))))
  else none

/-- The starting position of a CYCLE within its period (R133). -/
def cyclePosition (slot off on : Nat) (spread : Bool) : Nat :=
  if spread then (off + on) * slot / 256 else 0

/-- What a CYCLE taken at once writes (R133); `none` when it has expired on arrival. -/
def cycleRecord (slot age off on duration : Nat) (spread : Bool) : Option Imposed :=
  let p := cyclePosition slot off on spread
  let start (r : Run) : Imposed :=
    if p < off then .cycle ⟨off, on, .off, off - p, r, none, false⟩
    else .cycle ⟨off, on, .on, off + on - p, r, none, false⟩
  if duration = 0 then some (start .indefinite)
  else if age / 100 < duration * 60 then some (start (.left (duration * 60 - age / 100)))
  else none

/-- The run remaining of an override, or in DELAY the run length to come; absent for NONE and for an
indefinite run, which refuse an ADJUST (R137). -/
def Imposed.runLength : Imposed → Option Nat
  | .force _ (.delay _ (.left n)) => some n
  | .force _ (.run (.left n)) => some n
  | .cycle ⟨_, _, _, _, .left n, _, _⟩ => some n
  | _ => Option.none

/-- The run remaining, or in DELAY the run length to come, replaced. -/
def Imposed.setRunLength (n : Nat) : Imposed → Imposed
  | .none => .none
  | .force l (.delay d _) => .force l (.delay d (.left n))
  | .force l (.run _) => .force l (.run (.left n))
  | .cycle c => .cycle { c with run := .left n }

/-- What an ADJUST by so many seconds makes of a record (R137); `none` when it is refused. -/
def Imposed.adjust (change : Int) (i : Imposed) : Option Imposed :=
  i.runLength.map fun n =>
    if (n : Int) + change ≤ 0 then .none
    else i.setRunLength (min Config.most16 ((n : Int) + change).toNat)

/-- What a CANCEL makes of a record (R138, R139). -/
def Imposed.cancel (finish : Bool) : Imposed → Imposed
  | .none => .none
  | .force _ _ => .none
  | .cycle f => if finish then .cycle { f with finish := true, staged := Option.none } else .none

/-- What an order makes of a record, the superseding test passed; `none` when it is refused
(R128, R133, R134, R137, R138). -/
def ChannelOrder.judge (slot age : Nat) (o : ChannelOrder) (i : Imposed) : Option Imposed :=
  match o with
  | .switch level delay spread duration => switchRecord slot age level delay spread duration
  | .cycle off on duration spread immediate =>
    match i with
    | .cycle f =>
      if immediate then cycleRecord slot age off on duration spread
      else some (.cycle { f with staged := some ⟨off, on, duration⟩, finish := false })
    | _ => cycleRecord slot age off on duration spread
  | .adjust minutes => i.adjust (minutes * 60)
  | .cancel finish => some (i.cancel finish)

/-- An order at one named channel (R124 to R126). -/
def Work.order (cc : ChannelConfig) (slot : Nat) (origin : Byte) (serial : Word) (age : Nat)
    (o : ChannelOrder) (w : Work) : Work :=
  if cc.used then
    if supersededBy w.unit.override.source origin serial then w.countRefused
    else match o.judge slot age w.unit.override.imposed with
      | none => w.countRefused
      | some i => (((w.impose i).wroteBy (.remote origin serial)).rework cc).countApplied
  else w

/-- A qualified BOOST press (R140). DESIGN CHOICE, unsafe (log entry 31): after an order taken first
that leaves the record of kind NONE (a SWITCH or CYCLE refused on NONE, a superseded order, an ADJUST or CANCEL
that ends a standing override) R145's words give no boost and R140's table starts one; the model follows the
table. -/
def Work.press (cc : ChannelConfig) (boostMinutes : Nat) (w : Work) : Work :=
  match w.unit.override.imposed, w.unit.override.source with
  | .force .on _, some .boost => (w.impose .none).rework cc
  | .none, _ =>
    if w.unit.state = .normal then
      ((w.impose (.force .on (.run (.left (boostMinutes * 60))))).wroteBy .boost).rework cc
    else w
  | _, _ => w

/-! ## The channel state -/

/-- The channel enters FALLBACK_HOLD: its safe level is handed with the entry (R158). -/
def Work.enterHold (cc : ChannelConfig) (w : Work) : Work :=
  (w.report { w.unit with state := .fallbackHold, handed := some cc.safe }).fallbackEntry cc

/-- The channel enters NORMAL (R161). -/
def Work.enterNormal (cc : ChannelConfig) (w : Work) : Work :=
  (w.report { w.unit with state := .normal }).rework cc

/-- The return countdown's setting (R160). -/
def ChannelConfig.returnSeconds (cc : ChannelConfig) (slot : Nat) : Nat :=
  cc.returnBase * 60 + stagger cc.returnSpread slot

/-- The channel enters RETURN_WAIT, or NORMAL at once when its countdown is set to 0 (R160). -/
def Work.beginReturn (cc : ChannelConfig) (slot : Nat) (w : Work) : Work :=
  if cc.returnSeconds slot = 0 then w.enterNormal cc
  else w.report { w.unit with state := .returnWait (cc.returnSeconds slot), returnSet := true }

/-- The last effective condition has cleared (R159). -/
def Work.leaveHold (cc : ChannelConfig) (slot : Nat) (w : Work) : Work :=
  if cc.noAutoReturn then w.report { w.unit with state := .releaseWait }
  else w.beginReturn cc slot

/-- An effective condition is active for the channel (R157). -/
def ChannelUnit.effective (cc : ChannelConfig) (active : Conditions) (u : ChannelUnit) : Bool :=
  u.forced || active.meets cc.mask

/-- An effective condition has become active for the channel (R158). -/
def Work.conditionRaised (cc : ChannelConfig) (w : Work) : Work :=
  if w.unit.state = .fallbackHold then w else w.enterHold cc

/-- An effective condition has become inactive for the channel (R157, R159). -/
def Work.conditionCleared (cc : ChannelConfig) (slot : Nat) (active : Conditions) (w : Work) : Work :=
  if w.unit.state = .fallbackHold && !w.unit.effective cc active then w.leaveHold cc slot else w

/-- A change of a station condition at one channel; `active` is the set as changed (R154, R157). -/
def Work.stationCondition (cc : ChannelConfig) (slot : Nat) (active : Conditions) (k : Condition)
    (w : Work) : Work :=
  if cc.used && cc.mask.get k then
    if active.get k then w.conditionRaised cc else w.conditionCleared cc slot active
  else w

/-- FORCE SAFE at one named channel (R156). -/
def Work.forceSafe (cc : ChannelConfig) (slot : Nat) (active : Conditions) (origin : Byte)
    (serial : Word) (on : Bool) (w : Work) : Work :=
  if cc.used then
    if supersededBy (w.unit.setter.map fun p => .remote p.1 p.2) origin serial then w.countRefused
    else
      let set := { w.unit with forced := on, setter := some (origin, serial) }
      if w.unit.forced = on then (w.put set).countApplied
      else if on then ((w.report set).conditionRaised cc).countApplied
      else ((w.report set).conditionCleared cc slot active).countApplied
  else w

/-- RELEASE at one named channel (R162). -/
def Work.release (cc : ChannelConfig) (w : Work) : Work :=
  if cc.used then
    match w.unit.state with
    | .returnWait _ | .releaseWait => (w.enterNormal cc).countApplied
    | .fallbackHold => w.countRefused
    | .normal => w
  else w

/-- The return countdown at an elapsed second; one set at this very tick takes its first decrease at the
next second (R160). -/
def Work.returnTick (cc : ChannelConfig) (w : Work) : Work :=
  match w.unit.state with
  | .returnWait n =>
    if w.unit.returnSet then w
    else if n ≤ 1 then w.enterNormal cc else w.put { w.unit with state := .returnWait (n - 1) }
  | _ => w

/-- The placement of a channel at found configured (R163, R165, R171). -/
def Work.place (cc : ChannelConfig) (slot : Nat) (active : Conditions) (w : Work) : Work :=
  if cc.used then
    let held := (w.report { w.unit with state := .fallbackHold }).straight cc cc.safe
    if w.unit.effective cc active then held else held.beginReturn cc slot
  else (w.report { w.unit with state := .normal }).straight cc .off

/-- The channel at found UNCONFIGURED: held in FALLBACK_HOLD, requesting OFF (R165, R170). -/
def Work.withhold (w : Work) : Work :=
  w.put { w.unit with state := .fallbackHold, handed := some .off }

/-- A resolved band handed to the controller (R115, R143). -/
def Work.takeBand (cc : ChannelConfig) (b : Option HandedBand) (w : Work) : Work :=
  (w.put { w.unit with band := b }).rework cc

end Sys2Proof.Machine
end

