-- ==== Sys2Proof/Machine/Operands.lean ====
section
/-! DEFINITION. Reading the byte layouts of chapter 12: the telegram and its payloads, the program
image and the configuration image, by the rules of R203; and the relayed copy's bytes (R11, R54). A bit
or byte that a layout marks "not read" is read by nothing here. -/

namespace Sys2Proof.Machine

/-! ## Fields of bytes -/

/-- One byte by its position, counted from 0. -/
def byteAt (bytes : List Byte) (i : Nat) : Byte := bytes.getD i 0

/-- Two bytes, most significant first. -/
def wordAt (bytes : List Byte) (i : Nat) : Word := wordOf (byteAt bytes i) (byteAt bytes (i + 1))

/-- Two bytes as a number. -/
def nat16At (bytes : List Byte) (i : Nat) : Nat := (wordAt bytes i).toNat

/-- Three bytes as a number. -/
def nat24At (bytes : List Byte) (i : Nat) : Nat :=
  (byteAt bytes i).toNat * 65536 + nat16At bytes (i + 1)

/-- The bits of a byte from `low` up, as a number. -/
def bitsOf (b : Byte) (low width : Nat) : Nat := (b.extractLsb' low width).toNat

/-- A flag read from its named bit alone (R203). -/
def flagOf (b : Byte) (bit : Nat) : Bool := b.getLsbD bit

/-- A level read from a bit: 1 ON, 0 OFF. -/
def levelOf (b : Byte) (bit : Nat) : Level := if flagOf b bit then .on else .off

/-- A channel's place among the bits of a channel set, or among records: channel 1 is 0. -/
def channelPlace : Channel → Nat
  | .ch1 => 0 | .ch2 => 1 | .ch3 => 2 | .ch4 => 3 | .ch5 => 4 | .ch6 => 5

/-- Something worked out for each channel. -/
def Six.of {α : Type} (f : Channel → α) : Six α :=
  ⟨f .ch1, f .ch2, f .ch3, f .ch4, f .ch5, f .ch6⟩

/-! ## The telegram (section 12.1) -/

/-- The kind (R17). -/
def kindOf (copy : List Byte) : Nat := bitsOf (byteAt copy 0) 4 4
/-- The origin (R14). -/
def originOf (copy : List Byte) : Byte := byteAt copy 1
/-- The serial (R14). -/
def serialOf (copy : List Byte) : Word := wordAt copy 2
/-- The budget (R15). -/
def budgetOf (copy : List Byte) : Nat := bitsOf (byteAt copy 4) 4 4
/-- The hops (R15). -/
def hopsOf (copy : List Byte) : Nat := bitsOf (byteAt copy 4) 0 4
/-- The age (R16). -/
def ageOf (copy : List Byte) : Nat := nat16At copy 5
/-- The target (R31). -/
def targetOf (copy : List Byte) : Byte := byteAt copy 7
/-- The 22 payload bytes. -/
def payloadOf (copy : List Byte) : List Byte := (copy.drop 8).take 22

/-- The check result of a received copy: PASS when the check over its first 30 bytes equals its last
two (R6). -/
def checkPasses (copy : List Byte) : Bool := crc16 (copy.take 30) = wordAt copy 30

/-- The 30 bytes before the check (R42). -/
def storedCopy (copy : List Byte) : List Byte := copy.take 30

/-- The copy a station sends from a stored copy (R11, R54): budget one less, hops one more up to 15, the
age grown by the frame time and the residence up to 65535, every other byte as stored, and the check
computed afresh. -/
def relayedCopy (stored : List Byte) (residence : Nat) : List Byte :=
  let hops := min 15 (hopsOf stored + 1)
  let age := min Config.most16 (ageOf stored + Config.frameTicks + residence)
  let head := (stored.set 4 (BitVec.ofNat 4 (budgetOf stored - 1) ++ BitVec.ofNat 4 hops)).set 5
    (byteAt (bytesOf (BitVec.ofNat 16 age)) 0)
  let body := head.set 6 (byteAt (bytesOf (BitVec.ofNat 16 age)) 1)
  body ++ bytesOf (crc16 body)

/-! ## The payloads (sections 12.2 to 12.4) -/

/-- A class value as a beacon carries it; values above 3 are taken as 3 SPECIAL (R71). -/
def dayClassOf (b : Byte) : DayClass :=
  if b = 0 then .workday else if b = 1 then .saturday else if b = 2 then .sundayHoliday else .special

/-- A TIME payload (R18): the origin's day and tick of day, and the classes of its day and the next. -/
structure Beacon where
  at_ : Moment
  today : DayClass
  tomorrow : DayClass
deriving DecidableEq, Repr

/-- The TIME payload read. -/
def beaconOf (payload : List Byte) : Beacon :=
  ⟨⟨wordAt payload 0, nat24At payload 2⟩, dayClassOf (byteAt payload 5), dayClassOf (byteAt payload 6)⟩

/-- The program id of a SEGMENT payload (R19). -/
def segmentId (payload : List Byte) : Word := wordAt payload 0
/-- The segment index as carried. -/
def segmentIndex (payload : List Byte) : Nat := (byteAt payload 2).toNat
/-- The 18 bytes of program data. -/
def segmentData (payload : List Byte) : List Byte := (payload.drop 3).take 18

/-- The channel is named in the order's channel set (R20, section 12.4). -/
def namesChannel (payload : List Byte) (c : Channel) : Bool := flagOf (byteAt payload 1) (channelPlace c)

/-- An order with its parameters (R20). -/
inductive Order where
  | record (order : ChannelOrder)
  | setWindow (slot : Nat) (start stop : Minute) (band : Nat) (mode : WindowMode)
  | clearWindow (slot : Nat)
  | forceSafe (on : Bool)
  | release
  | unknown
deriving DecidableEq, Repr

/-- A SET WINDOW minute: bits 10 to 0 of its two bytes, clamped (R104, R203). -/
def windowMinute (parameters : List Byte) (i : Nat) : Nat :=
  clamp 0 1439 ((wordAt parameters i).extractLsb' 0 11).toNat

/-- The order code and the parameters read, and clamped where the order's entry clamps them (R127, R132,
R136, R104). -/
def orderOf (payload : List Byte) : Order :=
  let ps := payload.drop 2
  let b := byteAt ps
  if byteAt payload 0 = 1 then
    .record (.switch (levelOf (b 0) 0) (clamp 0 1080 (nat16At ps 1)) (b 3).toNat
      (clamp 0 1080 (nat16At ps 4)))
  else if byteAt payload 0 = 2 then
    .record (.cycle (clamp 10 3600 (nat16At ps 0)) (clamp 10 3600 (nat16At ps 2))
      (clamp 0 1080 (nat16At ps 4)) (flagOf (b 6) 0) (flagOf (b 6) 1))
  else if byteAt payload 0 = 3 then
    .record (.adjust (clampInt (-1080) 1080 (wordAt ps 0).toInt))
  else if byteAt payload 0 = 4 then .record (.cancel (flagOf (b 0) 0))
  else if byteAt payload 0 = 5 then
    .setWindow (b 0).toNat ⟨wordAt ps 1, windowMinute ps 3⟩ ⟨wordAt ps 5, windowMinute ps 7⟩
      (bitsOf (b 9) 0 4) (if flagOf (b 9) 7 then .replace else .overlay)
  else if byteAt payload 0 = 6 then .clearWindow (b 0).toNat
  else if byteAt payload 0 = 7 then .forceSafe (flagOf (b 0) 0)
  else if byteAt payload 0 = 8 then .release
  else .unknown

/-! ## The program image (section 12.5) -/

/-- The program check passes (R87). -/
def programPasses (image : List Byte) : Bool :=
  crc16 (image.take 8 ++ (image.drop 10).take 128) = wordAt image 8

/-- The activation moment as carried (R84). -/
def activationOf (image : List Byte) : Moment := ⟨wordAt image 2, nat24At image 4⟩

/-- A band class code, with 5, 6 and 7 taken as CRITICAL (R88). -/
def bandClassOf (code : Nat) : BandClass :=
  match code with
  | 0 => .boost
  | 1 => .offpeak
  | 2 => .shoulder
  | 3 => .peak
  | _ => .critical

/-- One band of the table, clamped (R85, R88). -/
def bandOf (image : List Byte) (n : Nat) : Band :=
  let first := byteAt image (10 + 2 * n)
  let second := byteAt image (11 + 2 * n)
  ⟨bandClassOf (bitsOf first 5 3), clamp 1 8 (bitsOf first 0 4),
    Six.of fun c => levelOf second (channelPlace c)⟩

/-- One grid entry, by its number 48 times the day class plus the slot (R86). -/
def gridOf (image : List Byte) (n : Nat) : Nat :=
  let b := byteAt image (42 + 24 * (n / 48) + n % 48 / 2)
  if n % 2 = 0 then bitsOf b 4 4 else bitsOf b 0 4

/-- The program of an image, clamped (R84 to R88). -/
def programOf (image : List Byte) : Program :=
  { id := wordAt image 0, activation := activationOf image,
    defaultBand := bitsOf (byteAt image 7) 0 4, gridEnable := flagOf (byteAt image 7) 7,
    bands := (List.range 16).map (bandOf image), grid := (List.range 192).map (gridOf image) }

/-! ## The configuration image (section 12.6) -/

/-- The image's check passes (R186). -/
def imagePasses (image : List Byte) : Bool := crc16 (image.take 64) = wordAt image 64

/-- The image's version (R186). -/
def versionOf (image : List Byte) : Nat := (byteAt image 0).toNat

/-- A one-byte field with a default on all ones (section 10.3). -/
def field8 (image : List Byte) (i low high default_ : Nat) : Nat :=
  if (byteAt image i).toNat = 255 then default_ else clamp low high (byteAt image i).toNat

/-- A two-byte field with a default on all ones. -/
def field16 (image : List Byte) (i low high default_ : Nat) : Nat :=
  if nat16At image i = 65535 then default_ else clamp low high (nat16At image i)

/-- The lost limit reconciled with the hold limit (R188): raised to the smallest whole number of
hours not below the hold limit where that exceeds it. -/
def reconciledLost (hold lost : Nat) : Nat := if 60 * lost < hold then (hold + 59) / 60 else lost

/-- The channel record's condition mask (R190). -/
def maskOf (b : Byte) : Conditions :=
  ⟨flagOf b 0, flagOf b 1, flagOf b 2, flagOf b 3, flagOf b 4⟩

/-- The input function code; code 3 is taken as NONE (R190). -/
def inputFunctionOf (code : Nat) : InputFunction :=
  match code with
  | 1 => .hold
  | 2 => .boost
  | _ => .none

/-- One channel record, taken by R190. -/
def channelConfigOf (image : List Byte) (c : Channel) : ChannelConfig :=
  let i := 34 + 5 * (channelPlace c)
  { used := flagOf (byteAt image i) 0, safe := levelOf (byteAt image i) 1,
    noAutoReturn := flagOf (byteAt image i) 2, input := inputFunctionOf (bitsOf (byteAt image i) 4 2),
    mask := maskOf (byteAt image (i + 1)), returnBase := (byteAt image (i + 2)).toNat,
    returnSpread := (byteAt image (i + 3)).toNat, minDwell := clamp 1 60 (byteAt image (i + 4)).toNat }

/-- A counted list's places, from its first (R189). -/
def countedPlaces (image : List Byte) (countAt first most : Nat) : List Byte :=
  (image.drop first).take (clamp 1 most (byteAt image countAt).toNat)

/-- The configuration values of a good image, clamped by R187 to R190. -/
def configurationOf (image : List Byte) : Configuration :=
  let hold := field16 image 12 10 1440 120
  { relayEnable := flagOf (byteAt image 1) 0
    relaySpread := field8 image 2 8 63 24
    suppression := field8 image 3 1 7 2
    heardMemory := field16 image 4 60 3600 600
    ageLimit := field16 image 6 1000 65000 60000
    beaconMaxAge := field16 image 8 100 30000 3000
    stepThreshold := field16 image 10 10 6000 200
    holdLimit := hold
    lostLimit := reconciledLost hold (field8 image 14 1 168 36)
    silenceLimit := field16 image 15 0 1440 180
    stagger := (byteAt image 17).toNat
    fallbackRegister := clamp 1 8 (byteAt image 18).toNat
    boostLength := clamp 1 240 (byteAt image 19).toNat
    origins := countedPlaces image 20 21 4
    groups := (countedPlaces image 25 26 8).map fun g => if g = 0 then 1 else g
    channels := Six.of (channelConfigOf image) }

end Sys2Proof.Machine
end

