-- ==== Sys2Proof/Machine/Fallback.lean ====
section
/-! DEFINITION. The Fallback Monitor (chapter 8): the station conditions, the silence countdown, the
step hold and the mains measurement, and the commands that are its own events. -/

namespace Sys2Proof.Machine

/-- The configuration record of a channel. -/
def Configuration.channel (cfg : Configuration) (c : Channel) : ChannelConfig := cfg.channels.get c

/-- A station condition given by its cause; a change of it is handed to every controller and to the
Status Port, and a cause that changes nothing hands nothing (R154). -/
def State.setCondition (cfg : Configuration) (k : Condition) (x : Bool) (s : State) : State :=
  if s.monitor.conditions.get k = x then s
  else
    let active := s.monitor.conditions.set k x
    ((s.setMonitor { s.monitor with conditions := active }).noteChange).onEachChannel
      fun c u => (Work.idle u).stationCondition (cfg.channel c) cfg.stagger active k

/-- TIME_INVALID taken from a change of time state (R148). -/
def State.reportTimeInvalid (cfg : Configuration) (s : State) : State :=
  s.setCondition cfg .timeInvalid (!s.time.state.valid)

/-- A step reported to the Fallback Monitor starts the hold afresh (R151). -/
def State.reportStep (cfg : Configuration) (s : State) : State :=
  (s.setMonitor { s.monitor with stepHold := Config.stepHoldSeconds, stepHoldSet := true }).setCondition cfg .timeStep true

/-- The silence countdown's start; it stays stopped with a silence limit of 0 (R147, R150). -/
def Configuration.silenceStart (cfg : Configuration) : Option Nat :=
  if cfg.silenceLimit = 0 then none else some (60 * cfg.silenceLimit)

/-- An acceptance restarts the silence countdown and clears SILENCE (R150). -/
def State.restartSilence (cfg : Configuration) (s : State) : State :=
  (s.setMonitor { s.monitor with silence := cfg.silenceStart }).setCondition cfg .silence false

/-- The silence countdown at an elapsed second (R150). -/
def State.silenceTick (cfg : Configuration) (s : State) : State :=
  match s.monitor.silence with
  | none => s
  | some n =>
    if n = 0 then s
    else if n = 1 then
      (s.setMonitor { s.monitor with silence := some 0 }).setCondition cfg .silence true
    else s.setMonitor { s.monitor with silence := some (n - 1) }

/-- The step-hold countdown at an elapsed second; one set at this very tick takes its first decrease at
the next second (R151). -/
def State.stepHoldTick (cfg : Configuration) (s : State) : State :=
  if s.monitor.stepHold = 0 || s.monitor.stepHoldSet then s
  else if s.monitor.stepHold = 1 then
    (s.setMonitor { s.monitor with stepHold := 0 }).setCondition cfg .timeStep false
  else s.setMonitor { s.monitor with stepHold := s.monitor.stepHold - 1 }

/-! ## The mains frequency -/

/-- A cycle of so many crystal periods lies from 47.5 Hz to 52.5 Hz inclusive (R152): at 8.192 MHz, a
frequency of 16,384,000 half-hertz periods over the length between 95 and 105. -/
def cycleClass (periods : Nat) : MainsClass :=
  if 95 * periods ≤ 16384000 ∧ 16384000 ≤ 105 * periods then .inside else .outside

/-- The classification follows the class of a cycle and notes the tick of its change (R152). -/
def Mains.follow (m : Mains) (cls : MainsClass) (now : Nat) : Mains :=
  if m.cls = cls then m else { m with cls := cls, changedAt := now }

/-- A rising zero crossing at a phase within the present tick (R152). It closes a cycle, or, after a
span without a crossing, opens a new one. -/
def Mains.crossing (m : Mains) (now phase : Nat) : Mains :=
  let at_ := now * Config.crystalPerTick + phase
  if m.spans = 0 then
    { m.follow (cycleClass (at_ - m.lastCrossing)) now with lastCrossing := at_ }
  else { m with lastCrossing := at_, spans := 0 }

/-- The tick in which the next hundredth millisecond without a crossing lies (R152). -/
def Mains.nextSpan (m : Mains) : Nat := m.lastCrossing / Config.crystalPerTick + 10 * (m.spans + 1)

/-- A span of 100 ms without a crossing is classed as an outside cycle (R152). -/
def Mains.noCrossing (m : Mains) (now : Nat) : Mains :=
  { m.follow .outside now with spans := m.spans + 1 }

/-- MAINS_FREQ is to be raised (R153). -/
def Mains.raises (m : Mains) (now : Nat) : Bool := m.cls = .outside && m.changedAt + 500 ≤ now

/-- MAINS_FREQ is to be cleared (R153). -/
def Mains.clears (m : Mains) (now : Nat) : Bool := m.cls = .inside && m.changedAt + 3000 ≤ now

/-! ## The commands -/

/-- SILENCE_EXPIRY: the silence countdown's elapsed second (R150). -/
def execSilenceExpiry (s : State) : Host.Outcome State Fault Refusal :=
  .next (s.whenConfigured fun cfg => s.silenceTick cfg)

/-- STEP_HOLD_EXPIRY: the step hold's elapsed second (R151). -/
def execStepHoldExpiry (s : State) : Host.Outcome State Fault Refusal :=
  .next (s.whenConfigured fun cfg => s.stepHoldTick cfg)

/-- MAINS_CROSSING: a crossing later than the last one (R152). -/
def execMainsCrossing (phase : Nat) (s : State) : Host.Outcome State Fault Refusal :=
  .next (s.whenConfigured fun _ =>
    if s.monitor.mains.lastCrossing < s.elapsed * Config.crystalPerTick + phase then
      s.setMonitor { s.monitor with mains := s.monitor.mains.crossing s.elapsed phase }
    else s)

/-- MAINS_NO_CROSSING: at the hundredth millisecond, and at each further one (R152). -/
def execMainsNoCrossing (s : State) : Host.Outcome State Fault Refusal :=
  .next (s.whenConfigured fun _ =>
    if s.monitor.mains.nextSpan ≤ s.elapsed then
      s.setMonitor { s.monitor with mains := s.monitor.mains.noCrossing s.elapsed }
    else s)

/-- MAINS_FREQ_RAISE, once the classification has been OUTSIDE for 500 ticks (R153). -/
def execMainsFreqRaise (s : State) : Host.Outcome State Fault Refusal :=
  .next (s.whenConfigured fun cfg =>
    if s.monitor.mains.raises s.elapsed then s.setCondition cfg .mainsFreq true else s)

/-- MAINS_FREQ_CLEAR, once the classification has been INSIDE for 3000 ticks (R153). -/
def execMainsFreqClear (s : State) : Host.Outcome State Fault Refusal :=
  .next (s.whenConfigured fun cfg =>
    if s.monitor.mains.clears s.elapsed then s.setCondition cfg .mainsFreq false else s)

/-- RETURN_COUNTDOWN_EXPIRY: the return countdown's elapsed second (R160). -/
def execReturnCountdownExpiry (c : Channel) (s : State) : Host.Outcome State Fault Refusal :=
  .next (s.whenConfigured fun cfg =>
    s.onChannel c fun u => (Work.idle u).returnTick (cfg.channel c))

end Sys2Proof.Machine
end

