-- ==== Sys2Proof/Machine/Tariff.lean ====
section
/-! DEFINITION. The Tariff Resolver (chapter 6): the window table and its orders, expiry, and the
resolution of the band and of the register index. -/

namespace Sys2Proof.Machine

/-! ## Reading a program -/

/-- The rank of a band class (R110). -/
def BandClass.rank : BandClass → Nat
  | .boost => 0 | .offpeak => 1 | .shoulder => 2 | .peak => 3 | .critical => 4

/-- The number of a day class (introduction, "Day class"). -/
def DayClass.code : DayClass → Nat
  | .workday => 0 | .saturday => 1 | .sundayHoliday => 2 | .special => 3

/-- A place of the band table that a program of sixteen bands never lacks. -/
def Band.absent : Band := ⟨.boost, 1, .all .off⟩

/-- The band of a number (R85). -/
def Program.band (p : Program) (n : Nat) : Band := p.bands.getD n .absent

/-- The rank of the band of a number. -/
def Program.rank (p : Program) (n : Nat) : Nat := (p.band n).cls.rank

/-- The grid entry of a day class at a tick of day (R86). -/
def Program.gridBand (p : Program) (cls : DayClass) (tick : Nat) : Nat :=
  p.grid.getD (48 * cls.code + tick / Config.slotTicks) 0

/-! ## Windows -/

/-- A window covers a moment: its start is reached and its end is not (R103). -/
def Window.covers (w : Window) (clock : Moment) : Bool :=
  clock.hasReached w.start.moment && !clock.hasReached w.stop.moment

/-- The setter has the same origin and a newer serial (R104, R106). -/
def Window.supersedes (w : Window) (origin : Byte) (serial : Word) : Bool :=
  w.setOrigin = origin && newer w.setSerial serial

/-- The band of the covering window of a mode with the highest rank, and among equals of the one in the
lowest-numbered slot (R110, R111). -/
def chosenWindow (p : Program) (clock : Moment) (mode : WindowMode) (windows : List (Option Window)) :
    Option Nat :=
  windows.foldl (fun best slot =>
    match slot with
    | none => best
    | some w =>
      if w.mode = mode && w.covers clock then
        match best with
        | none => some w.band
        | some b => if p.rank b < p.rank w.band then some w.band else best
      else best) none

/-- Where a resolution took its band from (section 6.1). -/
inductive BandSource where
  | grid | default | overlay | replace | invalidTime
deriving DecidableEq, Repr

/-- The resolution with an active program (R109 to R112). -/
def resolvedBand (p : Program) (t : Timekeeper) (windows : List (Option Window)) : Nat × BandSource :=
  if t.state.valid then
    let base : Nat × BandSource :=
      if p.gridEnable then (p.gridBand t.today t.clock.tick, .grid) else (p.defaultBand, .default)
    match chosenWindow p t.clock .replace windows with
    | some b => (b, .replace)
    | none =>
      match chosenWindow p t.clock .overlay windows with
      | some b => if p.rank base.1 ≤ p.rank b then (b, .overlay) else base
      | none => base
  else if p.gridEnable then (p.gridBand .workday t.clock.tick, .invalidTime)
  else (p.defaultBand, .invalidTime)

/-- The register index that follows from a resolution (R114). -/
def registerIndex (cfg : Configuration) (active : Option Program) (t : Timekeeper)
    (windows : List (Option Window)) : Nat :=
  match active with
  | some p =>
    if t.state.valid then (p.band (resolvedBand p t windows).1).register else cfg.fallbackRegister
  | none => cfg.fallbackRegister

/-- The resolved band, or none while no program is active (R113). -/
def bandNow (active : Option Program) (t : Timekeeper) (windows : List (Option Window)) :
    Option ResolvedBand :=
  active.map fun p => ⟨(resolvedBand p t windows).1, p.id⟩

/-- What a controller is handed of a resolved band (R115). -/
def handedBand (active : Option Program) (b : Option ResolvedBand) (c : Channel) : Option HandedBand :=
  match active, b with
  | some p, some r => some ⟨r.number, (p.band r.number).cls, (p.band r.number).action.get c⟩
  | _, _ => none

/-- A resolved band that has changed is handed to every controller (R115). -/
def State.handBand (cfg : Configuration) (b : Option ResolvedBand) (s : State) : State :=
  if s.resolver.band = b then s
  else (s.setResolver { s.resolver with band := b }).onEachChannel
    fun c u => (Work.idle u).takeBand (cfg.channel c) (handedBand s.programs.active b c)

/-- A register index that has changed is handed to the Output Stage, which drives the lines from it
(R115, R180); the change is reported. -/
def State.handIndex (n : Nat) (s : State) : State :=
  if s.resolver.index = n then s
  else ((s.setResolver { s.resolver with index := n }).setRegister n).noteChange

/-- A resolution of the present moment against these windows (R109 to R115). -/
def State.resolveOver (cfg : Configuration) (windows : List (Option Window)) (s : State) : State :=
  (s.handBand cfg (bandNow s.programs.active s.time windows)).handIndex
    (registerIndex cfg s.programs.active s.time windows)

/-- One resolution of the present moment (R117). -/
def State.resolve (cfg : Configuration) (s : State) : State := s.resolveOver cfg s.resolver.windows

/-- The windows in force while the starts at these moments are still to be taken: an event that meets a
window's start and is taken first does not find the window (R120; log entry 25). -/
def unstarted (awaited : List Moment) (windows : List (Option Window)) : List (Option Window) :=
  windows.map fun slot => slot.filter fun w => !awaited.contains w.start.moment

/-- A resolution while the window starts at these moments are still to be taken (R120). -/
def State.resolveAwaiting (cfg : Configuration) (awaited : List Moment) (s : State) : State :=
  s.resolveOver cfg (unstarted awaited s.resolver.windows)

/-! ## Expiry and the advance of the clock -/

/-- Every slot whose window's end the clock has reached is freed (R107). -/
def freeExpired (clock : Moment) (windows : List (Option Window)) : List (Option Window) :=
  windows.map fun slot =>
    match slot with
    | some w => if clock.hasReached w.stop.moment then none else some w
    | none => none

/-- An examination for expiry, made while the time state is valid (R107). -/
def State.expireWindows (s : State) : State :=
  if s.time.state.valid then
    s.setResolver { s.resolver with windows := freeExpired s.time.clock s.resolver.windows }
  else s

/-- An examination for expiry and the resolution of the same event (R116). -/
def State.expireAndResolve (cfg : Configuration) (s : State) : State := s.expireWindows.resolve cfg

/-- Some window of the table starts at a crossed moment. -/
def startsAmong (crossed : List Moment) (windows : List (Option Window)) : Bool :=
  windows.any fun slot => slot.any fun w => crossed.contains w.start.moment

/-- Some window of the table ends at a crossed moment. -/
def endsAmong (crossed : List Moment) (windows : List (Option Window)) : Bool :=
  windows.any fun slot => slot.any fun w => crossed.contains w.stop.moment

/-- The crossed moments include a slot boundary, that of slot 0 among them (R116). -/
def boundaryAmong (crossed : List Moment) : Bool :=
  crossed.any fun m => m.tick % Config.slotTicks = 0

/-! ## The window orders -/

/-- The window in a slot, if any. -/
def windowIn (windows : List (Option Window)) (slot : Nat) : Option Window := windows.getD slot none

/-- The slot holds a window that supersedes the order. -/
def slotSupersedes (windows : List (Option Window)) (slot : Nat) (origin : Byte) (serial : Word) : Bool :=
  (windowIn windows slot).any fun w => w.supersedes origin serial

/-- The window table written. -/
def State.writeWindows (ws : List (Option Window)) (s : State) : State :=
  s.setResolver { s.resolver with windows := ws }

/-- SET WINDOW (R104): judged by its slot, by its end against its start, and by the superseding test;
then the slot is written, expiry is examined (R107) and the resolver resolves. A start and an end on days
exactly 32768 apart have the signed difference -32768 either way (R103), so that neither is before the other
and they are not equal: R104's "not after" and "before or equal" part there, and the model takes the end not
to be after the start and refuses the order (DESIGN CHOICE, log entry 29). -/
def State.setWindow (cfg : Configuration) (origin : Byte) (serial : Word) (slot : Nat)
    (start stop : Minute) (band : Nat) (mode : WindowMode) (s : State) : State :=
  if 23 < slot then s.count .ordersRefused
  else if !start.before stop then s.count .ordersRefused
  else if slotSupersedes s.resolver.windows slot origin serial then s.count .ordersRefused
  else
    ((s.writeWindows (s.resolver.windows.set slot (some ⟨start, stop, band, mode, origin, serial⟩))).count
      .ordersApplied).expireAndResolve cfg

/-- Every slot freed but those that supersede the order (R106). -/
def clearAll (origin : Byte) (serial : Word) (windows : List (Option Window)) : List (Option Window) :=
  windows.map fun slot =>
    match slot with
    | some w => if w.supersedes origin serial then some w else none
    | none => none

/-- CLEAR WINDOW (R106). -/
def State.clearWindow (cfg : Configuration) (origin : Byte) (serial : Word) (slot : Nat) (s : State) :
    State :=
  if slot ≤ 23 then
    if slotSupersedes s.resolver.windows slot origin serial then s.count .ordersRefused
    else if (windowIn s.resolver.windows slot).isNone then s.count .ordersApplied
    else ((s.writeWindows (s.resolver.windows.set slot none)).count .ordersApplied).resolve cfg
  else if slot = 255 then
    let freed := clearAll origin serial s.resolver.windows
    if freed = s.resolver.windows then s.count .ordersApplied
    else ((s.writeWindows freed).count .ordersApplied).resolve cfg
  else s.count .ordersRefused

end Sys2Proof.Machine
end

