-- ==== Sys2Proof/Machine/Programs.lean ====
section
/-! DEFINITION. The Program Collector (chapter 5): the staging record, completion, the pending and the
active program, and the command that is its own event. -/

namespace Sys2Proof.Machine

/-! ## Examination and activation -/

/-- The program takes effect on completion (R84). -/
def Program.onCompletion (p : Program) : Bool := p.activation = ⟨0, 0⟩

/-- The presence of an active program reported to the Fallback Monitor (R96, R149). -/
def State.reportProgram (cfg : Configuration) (s : State) : State :=
  s.setCondition cfg .noProgram s.programs.active.isNone

/-- The pending program becomes active; the activation is reported to the Tariff Resolver, to the
Fallback Monitor and to the Status Port (R96). -/
def State.activate (cfg : Configuration) (awaited : List Moment) (p : Program) (s : State) : State :=
  ((s.setPrograms { s.programs with active := some p, next := none }).noteChange).inSomeOrder
    [State.resolveAwaiting cfg awaited, State.reportProgram cfg]

/-- The pending program's time has come (R95). -/
def Program.due (p : Program) (t : Timekeeper) : Bool :=
  p.onCompletion || t.state.valid && t.clock.hasReached p.activation

/-- An examination of the pending program (R95), while the window starts at these moments are still to be
taken (R120). -/
def State.examineAwaiting (cfg : Configuration) (awaited : List Moment) (s : State) : State :=
  match s.programs.next with
  | some p => if p.due s.time then s.activate cfg awaited p else s
  | none => s

/-- An examination of the pending program (R95). -/
def State.examineProgram (cfg : Configuration) (s : State) : State := s.examineAwaiting cfg []

/-- The crossed moments include the pending program's activation time (R95). -/
def Collector.reachedAmong (crossed : List Moment) (k : Collector) : Bool :=
  k.next.any fun p => crossed.contains p.activation

/-! ## Completion -/

/-- An id is newer than a program's, or there is no program (R93). -/
def newerThan (id : Word) (p : Option Program) : Bool := p.all fun q => newer id q.id

/-- The image of a complete assembly: its eight segments in order (section 5.1). -/
def assembledImage (segments : List (Option (List Byte))) : List Byte :=
  (segments.map fun x => x.getD []).flatten

/-- A completed program judged, in R93's order: its check, its activation tick, its id against each
reference id; the staging record is emptied in every outcome. -/
def State.complete (cfg : Configuration) (image : List Byte) (s : State) : State :=
  let s' := s.setPrograms { s.programs with staging := none }
  let p := programOf image
  if !programPasses image then s'.count .progDiscarded
  else if Config.dayTicks ≤ p.activation.tick then s'.count .progDiscarded
  else if !(newerThan p.id s.programs.next && newerThan p.id s.programs.active) then
    s'.count .progDiscarded
  else
    ((s'.setPrograms { s'.programs with next := some p }).count .progComplete).examineProgram cfg

/-! ## Collecting -/

/-- A staging record opened from one segment (R91). -/
def openStaging (id : Word) (index : Nat) (data : List Byte) : Staging :=
  ⟨id, (List.replicate 8 none).set index (some data), Config.assemblySeconds⟩

/-- A segment taken by the staging record, by its program id (R91). -/
def takeSegment (staging : Option Staging) (id : Word) (index : Nat) (data : List Byte) : Staging :=
  match staging with
  | none => openStaging id index data
  | some g =>
    if newer id g.id then openStaging id index data
    else if id = g.id then { g with segments := g.segments.set index (some data) }
    else g

/-- The primary origin: the origin of entry 0 (R24). -/
def OriginTable.primary (o : OriginTable) : Option Byte := o.entries.head?.map (·.id)

/-- A SEGMENT telegram at the Program Collector (R90, R91, R93). -/
def State.collect (cfg : Configuration) (origin : Byte) (payload : List Byte) (s : State) : State :=
  if s.origins.primary = some origin ∧ segmentIndex payload ≤ 7 then
    let g := takeSegment s.programs.staging (segmentId payload) (segmentIndex payload)
      (segmentData payload)
    if g.segments.all Option.isSome then s.complete cfg (assembledImage g.segments)
    else s.setPrograms { s.programs with staging := some g }
  else s

/-- The assembly countdown at an elapsed second (R92). -/
def State.assemblyTick (s : State) : State :=
  match s.programs.staging with
  | none => s
  | some g =>
    if g.countdown ≤ 1 then (s.setPrograms { s.programs with staging := none }).count .progDiscarded
    else s.setPrograms { s.programs with staging := some { g with countdown := g.countdown - 1 } }

/-- ASSEMBLY_TIMEOUT: the assembly countdown's elapsed second (R92). -/
def execAssemblyTimeout (s : State) : Host.Outcome State Fault Refusal :=
  .next (s.whenConfigured fun _ => s.assemblyTick)

end Sys2Proof.Machine
end

