-- ==== Sys2Proof/Machine/Timekeeping.lean ====
section
/-! DEFINITION. The Timekeeper (chapter 4): the network clock and its advance, the time states and their
countdowns, and beacons. -/

namespace Sys2Proof.Machine

/-! ## The advance of the clock -/

/-- The clock advanced by so many ticks, with the day rollover where it passes the end of the day
(R63, R64). -/
def Timekeeper.advance (t : Timekeeper) (ticks : Nat) : Timekeeper :=
  if Config.dayTicks ≤ t.clock.tick + ticks then
    { t with clock := t.clock.later ticks, today := t.tomorrow.getD .workday, tomorrow := none }
  else { t with clock := t.clock.later ticks }

/-- The ticks by which the clock advances at an elapsed tick (R63, R80). -/
def Timekeeper.stride (t : Timekeeper) (secondEnd : Bool) : Nat :=
  if secondEnd then (if 0 < t.slew then 2 else if t.slew < 0 then 0 else 1) else 1

/-- The slew remaining after an elapsed tick (R80). -/
def Timekeeper.slewAfter (t : Timekeeper) (secondEnd : Bool) : Int :=
  if secondEnd then (if 0 < t.slew then t.slew - 1 else if t.slew < 0 then t.slew + 1 else 0)
  else t.slew

/-- The moments an advance crosses, the last of them the clock's new reading (R63, R70). -/
def crossedMoments (clock : Moment) (ticks : Nat) : List Moment :=
  (List.range ticks).map fun i => clock.later (i + 1)

/-- The Timekeeper at an elapsed tick. -/
def Timekeeper.tick (t : Timekeeper) (secondEnd : Bool) : Timekeeper :=
  { t with slew := t.slewAfter secondEnd }.advance (t.stride secondEnd)

/-- The events at the Tariff Resolver and the Program Collector that an advance of the clock brings about
by the moments it crosses (R95, R107, R116): a slot boundary, the start and the end of windows, and the
activation time. -/
inductive ClockEvent where
  | boundary | windowStart | windowEnd | activation
deriving DecidableEq, Repr

/-- The events of an advance; windows are watched in a valid time state only (R116). -/
def State.clockEvents (crossed : List Moment) (s : State) : List ClockEvent :=
  (if boundaryAmong crossed then [.boundary] else []) ++
  (if s.time.state.valid && startsAmong crossed s.resolver.windows then [.windowStart] else []) ++
  (if s.time.state.valid && endsAmong crossed s.resolver.windows then [.windowEnd] else []) ++
  (if s.programs.reachedAmong crossed then [.activation] else [])

/-- One of these events taken whole, with its own resolution (R120), while the window starts at the
awaited moments are still to be taken. -/
def State.clockEvent (cfg : Configuration) (awaited : List Moment) (e : ClockEvent) (s : State) : State :=
  match e with
  | .boundary | .windowStart => s.resolveAwaiting cfg awaited
  | .windowEnd => s.expireWindows.resolveAwaiting cfg awaited
  | .activation => s.examineAwaiting cfg awaited

/-- The events of an advance one after the other; a window start among those still to come is awaited
(R120). -/
def State.takeClockEvents (cfg : Configuration) (crossed : List Moment) :
    List ClockEvent → State → State
  | [], s => s
  | e :: later, s =>
    (s.clockEvent cfg (if later.contains .windowStart then crossed else []) e).takeClockEvents cfg crossed
      later

/-- The clock's advance at the present elapsed tick, and its report to the Tariff Resolver and the
Program Collector when the part is CONFIGURED, where its events come in the order of the next meeting
(R63, R69, R70, R120, R184). -/
def State.advanceClock (s : State) : State :=
  let second := endsSecond s.elapsed
  let crossed := crossedMoments s.time.clock (s.time.stride second)
  let s' := s.setTime (s.time.tick second)
  match s.loader.load with
  | .configured cfg => s'.met.takeClockEvents cfg crossed (arrange s'.meeting (s'.clockEvents crossed))
  | _ => s'

/-! ## The time states -/

/-- The hold countdown at an elapsed second (R66). -/
def Timekeeper.holdTick (t : Timekeeper) : Timekeeper :=
  if t.hold = 1 then
    { t with hold := 0, state := if t.state = .synced then .holdover else t.state }
  else { t with hold := t.hold - 1 }

/-- The lost countdown at an elapsed second (R66). -/
def Timekeeper.lostTick (t : Timekeeper) : Timekeeper :=
  if t.lost = 1 then
    { t with lost := 0,
             state := if t.state = .synced ∨ t.state = .holdover then .lost else t.state }
  else { t with lost := t.lost - 1 }

/-- A change of time state at the resolver: expiry is examined when the state becomes valid (R107), and
the resolver resolves (R116). -/
def State.resolverTimeState (cfg : Configuration) (before : TimeState) (s : State) : State :=
  if !before.valid && s.time.state.valid then s.expireAndResolve cfg else s.resolve cfg

/-- A change of time state reported to the Status Port, the Tariff Resolver, the Program Collector and
the Fallback Monitor (R70). -/
def State.reportTimeState (cfg : Configuration) (before : TimeState) (s : State) : State :=
  if s.time.state = before then s
  else s.noteChange.inSomeOrder
    [State.resolverTimeState cfg before, State.examineProgram cfg, State.reportTimeInvalid cfg]

/-- A countdown of the Timekeeper at an elapsed second: it runs while LOADING and while CONFIGURED
(R66, R184), and not while UNCONFIGURED (R69). -/
def State.timeCountdown (f : Timekeeper → Timekeeper) (s : State) : State :=
  match s.loader.load with
  | .unconfigured => s
  | .loading =>
    if (f s.time).state = s.time.state then s.setTime (f s.time)
    else (s.setTime (f s.time)).noteChange
  | .configured cfg => (s.setTime (f s.time)).reportTimeState cfg s.time.state

/-! ## Beacons -/

/-- A beacon is valid: its age is below the beacon maximum age and its tick of day is a tick of a day
(R71). -/
def beaconValid (cfg : Configuration) (b : Beacon) (age : Nat) : Bool :=
  age < cfg.beaconMaxAge && b.at_.tick < Config.dayTicks

/-- The estimate of a beacon: the network time at its reception end (R72). -/
def Beacon.estimate (b : Beacon) (age : Nat) : Moment := b.at_.later (age + Config.frameTicks)

/-- The offset of an estimate from a clock reading; `none` when it is large (R73). -/
def offsetOf (estimate clock : Moment) : Option Int :=
  let d := dayDiff estimate.day clock.day
  if -1 ≤ d ∧ d ≤ 1 then
    some (d * Config.dayTicks + estimate.tick - clock.tick)
  else none

/-- An offset of a magnitude that does not exceed the step threshold (R73). -/
def withinThreshold (cfg : Configuration) (offset : Option Int) : Bool :=
  offset.any fun o => o.natAbs ≤ cfg.stepThreshold

/-- What the Timekeeper does with a valid beacon (R74 to R77). -/
inductive Decision where
  | firstSetting
  | slew (offset : Int)
  | holdCandidate
  | step
deriving DecidableEq, Repr

/-- The decision on a beacon beyond tolerance, by the candidate held (R76, R77). -/
def Timekeeper.judgeBeyond (cfg : Configuration) (now : Nat) (t : Timekeeper) (estimate : Moment) :
    Decision :=
  match t.candidate with
  | none => .holdCandidate
  | some c =>
    if Config.candidateTicks ≤ now - c.heldAt then .holdCandidate
    else if withinThreshold cfg (offsetOf estimate (c.estimate.later (now - c.heldAt))) then .step
    else .holdCandidate

/-- The decision on a valid beacon (R74 to R77). -/
def Timekeeper.judge (cfg : Configuration) (now : Nat) (t : Timekeeper) (estimate : Moment) : Decision :=
  if t.state = .unset then .firstSetting
  else match offsetOf estimate t.clock with
    | some o => if o.natAbs ≤ cfg.stepThreshold then .slew o else t.judgeBeyond cfg now estimate
    | none => t.judgeBeyond cfg now estimate

/-- The clock set to an estimate; a changed day makes tomorrow's class absent (R74, R77, R79). -/
def Timekeeper.setClock (t : Timekeeper) (estimate : Moment) : Timekeeper :=
  { t with clock := estimate, slew := 0,
           tomorrow := if estimate.day = t.clock.day then t.tomorrow else none }

/-- What every adoption does (R66, R78). -/
def Timekeeper.adopt (cfg : Configuration) (t : Timekeeper) : Timekeeper :=
  { t with state := .synced, hold := 60 * cfg.holdLimit, lost := 3600 * cfg.lostLimit,
           candidate := none }

/-- The Timekeeper after the decision on a valid beacon. -/
def Timekeeper.obey (cfg : Configuration) (now : Nat) (estimate : Moment) (d : Decision)
    (t : Timekeeper) : Timekeeper :=
  match d with
  | .firstSetting | .step => (t.setClock estimate).adopt cfg
  | .slew o => ({ t with slew := o } : Timekeeper).adopt cfg
  | .holdCandidate => { t with candidate := some ⟨estimate, now⟩ }

/-- The day classes a beacon gives, taken against the clock's day (R79). -/
def Timekeeper.takeClasses (b : Beacon) (t : Timekeeper) : Timekeeper :=
  if t.clock.day = b.at_.day then { t with today := b.today, tomorrow := some b.tomorrow }
  else if t.clock.day = b.at_.day + 1 then { t with today := b.tomorrow }
  else if t.clock.day = b.at_.day - 1 then { t with tomorrow := some b.today }
  else t

/-- The day classes taken, and a change of today's class reported to the resolver (R70, R79). -/
def State.takeClasses (cfg : Configuration) (b : Beacon) (s : State) : State :=
  let s' := s.setTime (s.time.takeClasses b)
  if s'.time.today = s.time.today then s' else s'.resolve cfg

/-- What a decision counts (R76 to R78). -/
def State.countDecision (d : Decision) (s : State) : State :=
  match d with
  | .firstSetting | .slew _ => s.count .timeAccepted
  | .step => (s.count .steps).count .timeAccepted
  | .holdCandidate => s

/-- The clock was set to the estimate (R74, R77). -/
def Decision.movesClock : Decision → Bool
  | .firstSetting | .step => true
  | .slew _ | .holdCandidate => false

/-- The reports of a decision (R70): a setting or step, and a change of time state, each to the resolver
and the collector and each with its own resolution and examination (R97, R120); a step and a change of time
state to the Fallback Monitor; and the day classes. -/
def beaconReports (cfg : Configuration) (b : Beacon) (d : Decision) (before after : TimeState) :
    List (State → State) :=
  (if d.movesClock then [State.expireAndResolve cfg, State.examineProgram cfg] else []) ++
  (if d = .step then [State.reportStep cfg] else []) ++
  (if after = before then []
   else [State.resolverTimeState cfg before, State.examineProgram cfg, State.reportTimeInvalid cfg]) ++
  [State.takeClasses cfg b]

/-- A beacon at its reception end (R71 to R79). -/
def State.beacon (cfg : Configuration) (b : Beacon) (age : Nat) (s : State) : State :=
  if beaconValid cfg b age then
    let estimate := b.estimate age
    let d := s.time.judge cfg s.elapsed estimate
    let s' := (s.setTime (s.time.obey cfg s.elapsed estimate d)).countDecision d
    let s'' := if s'.time.state = s.time.state then s' else s'.noteChange
    s''.inSomeOrder (beaconReports cfg b d s.time.state s'.time.state)
  else s.count .timeRejected

/-! ## The commands -/

/-- CLOCK_ADVANCE (R63). -/
def execClockAdvance (s : State) : Host.Outcome State Fault Refusal :=
  .next (s.whenRunning s.advanceClock)

/-- HOLD_COUNTDOWN_EXPIRY: the hold countdown's elapsed second (R66). -/
def execHoldCountdownExpiry (s : State) : Host.Outcome State Fault Refusal :=
  .next (s.whenRunning (s.timeCountdown Timekeeper.holdTick))

/-- LOST_COUNTDOWN_EXPIRY: the lost countdown's elapsed second (R66). -/
def execLostCountdownExpiry (s : State) : Host.Outcome State Fault Refusal :=
  .next (s.whenRunning (s.timeCountdown Timekeeper.lostTick))

end Sys2Proof.Machine
end

