-- ==== Sys2Proof/Machine/Relaying.lean ====
section
/-! DEFINITION. The Heard Table, the transmit choice and the transmit slot (chapter 3, sections 1.5
and 1.6), with the commands of the line's carrier, of the transmit choice and of expiry. -/

namespace Sys2Proof.Machine

/-! ## Places of the Heard Table -/

/-- The place with the least key, and among equal keys the lowest-numbered; with its key. -/
def leastKeyed {α : Type} (key : α → Option Nat) : List α → Option (Nat × Nat)
  | [] => none
  | x :: xs =>
    match key x, leastKeyed key xs with
    | none, r => r.map fun p => (p.1 + 1, p.2)
    | some k, none => some (0, k)
    | some k, some p => if k ≤ p.2 then some (0, k) else some (p.1 + 1, p.2)

/-- The entry at a place, if any. -/
def entryAt (heard : List (Option HeardEntry)) (i : Nat) : Option HeardEntry := heard.getD i none

/-- The entry has the key (origin, serial) (R14, R41). -/
def HeardEntry.hasKey (e : HeardEntry) (origin : Byte) (serial : Word) : Bool :=
  e.origin = origin && e.serial = serial

/-- The place of the entry with a key (R41). -/
def lookup (heard : List (Option HeardEntry)) (origin : Byte) (serial : Word) : Option Nat :=
  heard.findIdx? fun slot => slot.any fun e => e.hasKey origin serial

/-- RELAYED, SUPPRESSED and NO_RELAY are the settled states (R39). -/
def RelayState.settled : RelayState → Bool
  | .relayed | .suppressed | .noRelay => true
  | .pending _ _ _ | .sending _ _ => false

/-- The place a new entry may take: the lowest free place, or else that of the settled entry with the
earliest first heard, the lowest of several (R43). -/
def placeFor (heard : List (Option HeardEntry)) : Option Nat :=
  match heard.findIdx? Option.isNone with
  | some i => some i
  | none =>
    (leastKeyed (fun slot => slot.bind fun e =>
      if e.relay.settled then some e.firstHeard else none) heard).map (·.1)

/-- The due tick of a PENDING entry when it is not after a tick. -/
def dueKey (tick : Nat) (slot : Option HeardEntry) : Option Nat :=
  slot.bind fun e =>
    match e.relay with
    | .pending _ _ due => if due ≤ tick then some due else none
    | _ => none

/-- The PENDING entry with the earliest due tick up to a tick, and among equals the lowest index (R53). -/
def chosenEntry (tick : Nat) (heard : List (Option HeardEntry)) : Option Nat :=
  (leastKeyed (dueKey tick) heard).map (·.1)

/-- The last due tick whose entries are due (R49): every tick before the present one, and the present one
once its falling due has been taken, with all the entries whose due tick it is (log entry 26). -/
def State.dueBy (s : State) : Nat := max s.relay.dueTo (s.elapsed - 1)

/-- The memory time of an entry has passed (R58). -/
def HeardEntry.forgotten (cfg : Configuration) (now : Nat) (e : HeardEntry) : Bool :=
  e.firstHeard + 100 * cfg.heardMemory ≤ now

/-- One place written. -/
def State.writePlace (i : Nat) (x : Option HeardEntry) (s : State) : State :=
  s.setRelay { s.relay with heard := s.relay.heard.set i x }

/-- An entry that has become settled is removed at once when its memory time has passed (R58). -/
def State.settlePlace (cfg : Configuration) (i : Nat) (e : HeardEntry) (s : State) : State :=
  s.writePlace i (if e.forgotten cfg s.elapsed then none else some e)

/-! ## Draws (R59) -/

/-- The next draw of the generator: a free value. -/
def Generator.next (g : Generator) : Nat := Config.draw g.slot g.noise g.drawn

/-- The generator after one draw. -/
def Relay.drawOnce (r : Relay) : Relay := { r with generator := { r.generator with drawn := r.generator.drawn + 1 } }

/-- The relay draw, from 0 to the relay spread inclusive (R42). -/
def relayDraw (cfg : Configuration) (g : Generator) : Nat := g.next % (cfg.relaySpread + 1)

/-- The backoff, from 1 to 16 (R50). -/
def backoffDraw (g : Generator) : Nat := 1 + g.next % 16

/-! ## Opening and echoes -/

/-- The state of a new entry (R42). -/
def openedState (cfg : Configuration) (g : Generator) (copy : List Byte) (margin receptionEnd : Nat) :
    RelayState :=
  if cfg.relayEnable && 1 ≤ budgetOf copy then
    .pending (storedCopy copy) receptionEnd (receptionEnd + 4 * margin + relayDraw cfg g)
  else .noRelay

/-- The entry of a newly accepted telegram (R42). -/
def openedEntry (cfg : Configuration) (g : Generator) (copy : List Byte) (margin receptionEnd : Nat) :
    HeardEntry :=
  ⟨originOf copy, serialOf copy, openedState cfg g copy margin receptionEnd, 0, receptionEnd⟩

/-- An entry opened for an accepted telegram, or the telegram dropped from relaying (R42 to R44). -/
def State.openEntry (cfg : Configuration) (copy : List Byte) (margin receptionEnd : Nat) (s : State) :
    State :=
  match placeFor s.relay.heard with
  | none => s.count .relayDropped
  | some i =>
    let e := openedEntry cfg s.relay.generator copy margin receptionEnd
    let s' := s.writePlace i (some e)
    if e.relay = .noRelay then s' else s'.setRelay s'.relay.drawOnce

/-- A better copy replaces a PENDING entry's stored copy (R46). -/
def RelayState.hearCopy (copy : List Byte) (receptionEnd : Nat) : RelayState → RelayState
  | .pending stored end_ due =>
    if budgetOf stored < budgetOf copy then .pending (storedCopy copy) receptionEnd due
    else .pending stored end_ due
  | r => r

/-- The entry's own echo count and its stored copy after an echo (R45, R46). -/
def HeardEntry.hear (copy : List Byte) (receptionEnd : Nat) (e : HeardEntry) : HeardEntry :=
  { e with echoes := min 15 (e.echoes + 1), relay := e.relay.hearCopy copy receptionEnd }

/-- The entry is PENDING. -/
def RelayState.isPending : RelayState → Bool
  | .pending _ _ _ => true
  | _ => false

/-- An echo at the Relay Engine (R45 to R48). -/
def State.echo (cfg : Configuration) (i : Nat) (copy : List Byte) (receptionEnd : Nat) (s : State) :
    State :=
  let s' := s.count .echoes
  match entryAt s.relay.heard i with
  | none => s'
  | some e =>
    let e' := e.hear copy receptionEnd
    if e'.relay.isPending && cfg.suppression ≤ e'.echoes then
      (s'.count .suppressed).settlePlace cfg i { e' with relay := .suppressed }
    else s'.writePlace i (some e')

/-! ## The transmit choice -/

/-- The access state written. -/
def State.setAccess (a : Access) (s : State) : State := s.setRelay { s.relay with access := a }

/-- The line has turned BUSY (R51). -/
def State.reportBusy (s : State) : State :=
  match s.relay.access with
  | .lineQuiet | .backoff _ => s.setAccess .lineBusy
  | .lineBusy | .transmitting => s

/-- The line has turned QUIET (R50). -/
def State.reportQuiet (s : State) : State :=
  match s.relay.access with
  | .lineBusy =>
    match chosenEntry s.dueBy s.relay.heard with
    | some _ =>
      (s.setRelay s.relay.drawOnce).setAccess
        (.backoff (s.elapsed + backoffDraw s.relay.generator))
    | none => s.setAccess .lineQuiet
  | _ => s

/-- The line indication becomes BUSY if it was QUIET, and the change is reported (R9). -/
def State.turnBusy (s : State) : State :=
  match s.line.indication with
  | .quiet => (s.setLine { s.line with indication := .busy }).reportBusy
  | .busy => s

/-- The line indication becomes QUIET if it was BUSY, and the change is reported (R9). -/
def State.turnQuiet (s : State) : State :=
  match s.line.indication with
  | .busy => (s.setLine { s.line with indication := .quiet }).reportQuiet
  | .quiet => s

/-- The transmission starts: the slot is SENDING, the indication BUSY, the receiver OFF, the entry
SENDING and the access state TRANSMITTING (R10, R12, R53, R54). -/
def State.transmit (i : Nat) (e : HeardEntry) (stored : List Byte) (receptionEnd : Nat) (s : State) :
    State :=
  ((s.setLine { s.line with slot := .sending (relayedCopy stored (s.elapsed - receptionEnd)) s.elapsed,
                            indication := .busy, receiver := .off }).writePlace i
    (some { e with relay := .sending stored receptionEnd })).setAccess .transmitting

/-- The Line Interface takes an offer (R10). -/
def Line.takes (l : Line) : Bool := l.slot = .idle && l.indication = .quiet

/-- An offer is made for the chosen entry, and taken or refused (R53, R55). Where no entry is due there
is none to make. -/
def State.offer (s : State) : State :=
  match chosenEntry s.dueBy s.relay.heard with
  | none => s
  | some i =>
    match entryAt s.relay.heard i with
    | some e =>
      match e.relay with
      | .pending stored receptionEnd _ =>
        if s.line.takes then s.transmit i e stored receptionEnd else s.setAccess .lineBusy
      | _ => s
    | none => s

/-! ## The commands -/

/-- A carrier appears at an elapsed tick; the tick of an earlier one stays known by its end. -/
def Line.hearCarrier (now : Nat) (l : Line) : Line :=
  { l with cleanFrom := if l.carrierAt.any (· < now) then max l.cleanFrom (l.carrierAt.getD 0 + 1)
                        else l.cleanFrom
           carrierAt := some now }

/-- CARRIER_APPEARS (R9): the tick now under way is not clean (R8), and the indication of a CONFIGURED part
turns BUSY. While LOADING and UNCONFIGURED it stands at BUSY, and nothing is reported (R1). -/
def execCarrierAppears (s : State) : Host.Outcome State Fault Refusal :=
  .next (s.whenRunning
    (let s' := s.setLine (s.line.hearCarrier s.elapsed)
     match s.loader.load with
     | .configured _ => s'.turnBusy
     | .loading | .unconfigured => s'))

/-- A reception that goes on started before this tick boundary. -/
def Receiver.startedBefore (now : Nat) : Receiver → Bool
  | .receiving _ _ start => start < now
  | .off | .listening => false

/-- A transmission that goes on started before this tick boundary. -/
def TransmitSlot.startedBefore (now : Nat) : TransmitSlot → Bool
  | .sending _ start => start < now
  | .idle => false

/-- The tick just ended was clean: no carrier, no reception and no transmission of this station in it
(R8). What starts at the present boundary is no part of that tick. -/
def State.tickWasClean (s : State) (level : Rat) : Bool :=
  s.line.cleanFrom < s.elapsed && !(s.line.carrierAt.any fun t => t + 1 = s.elapsed) &&
  !s.line.receiver.startedBefore s.elapsed && !s.line.slot.startedBefore s.elapsed && level < 0

/-- A reception is going on. -/
def Receiver.busy : Receiver → Bool
  | .receiving _ _ _ => true
  | .off | .listening => false

/-- A carrier, a reception or a transmission of this station is on the line from the present boundary on,
so that the indication stays BUSY (R9; log entry 9). -/
def Line.taken (now : Nat) (l : Line) : Bool :=
  l.carrierAt = some now || l.receiver.busy || l.slot ≠ .idle

/-- The noise estimate moved one eighth of the way towards the level of a clean tick (R8). -/
def nextNoise (noise level : Rat) : Rat := noise + (level - noise) / 8

/-- The noise estimate at the end of a clean tick (R8). -/
def State.moveNoise (level : Rat) (s : State) : State :=
  s.setLine { s.line with noise := nextNoise s.line.noise level, cleanFrom := s.elapsed }

/-- CLEAN_TICK (R8, R9): the noise estimate moves, and the indication of a CONFIGURED part turns QUIET unless
the line is taken. UNCONFIGURED the indication stays BUSY (R1), and while LOADING the estimate holds its
restart state (R184). -/
def execCleanTick (level : Rat) (s : State) : Host.Outcome State Fault Refusal :=
  .next (s.whenRunning
    (if s.tickWasClean level then
      match s.loader.load with
      | .configured _ =>
        if s.line.taken s.elapsed then s.moveNoise level else (s.moveNoise level).turnQuiet
      | .unconfigured => s.moveNoise level
      | .loading => s
     else s))

/-- The entry at a place is PENDING and its due tick has come. -/
def State.placeDue (i : Nat) (s : State) : Bool :=
  (dueKey s.elapsed (entryAt s.relay.heard i)).isSome

/-- The entries whose due tick has come are due from now on (R49). -/
def State.fallDue (s : State) : State := s.setRelay { s.relay with dueTo := s.elapsed }

/-- ENTRY_FALLS_DUE (R49): the offer comes at once in LINE_QUIET, and later otherwise. -/
def execEntryFallsDue (place : Nat) (s : State) : Host.Outcome State Fault Refusal :=
  .next (s.whenConfigured fun _ =>
    if s.placeDue place then
      if s.relay.access = .lineQuiet then s.fallDue.offer else s.fallDue
    else s)

/-- BACKOFF_END (R52). -/
def execBackoffEnd (s : State) : Host.Outcome State Fault Refusal :=
  .next (s.whenConfigured fun _ =>
    match s.relay.access with
    | .backoff ends =>
      if ends ≤ s.elapsed then
        match chosenEntry s.dueBy s.relay.heard with
        | some _ => s.offer
        | none => s.setAccess .lineQuiet
      else s
    | _ => s)

/-- The place of the SENDING entry. -/
def sendingPlace (heard : List (Option HeardEntry)) : Option Nat :=
  heard.findIdx? fun slot => slot.any fun e =>
    match e.relay with
    | .sending _ _ => true
    | _ => false

/-- The transmission is complete at the Relay Engine (R56). -/
def State.completeRelay (cfg : Configuration) (s : State) : State :=
  match sendingPlace s.relay.heard with
  | none => s.setAccess .lineBusy
  | some i =>
    match entryAt s.relay.heard i with
    | some e => ((s.count .relayed).settlePlace cfg i { e with relay := .relayed }).setAccess .lineBusy
    | none => s.setAccess .lineBusy

/-- TRANSMISSION_COMPLETION, twenty ticks after the transmission start (R13, R56). -/
def execTransmissionCompletion (s : State) : Host.Outcome State Fault Refusal :=
  .next (s.whenConfigured fun cfg =>
    match s.line.slot with
    | .sending _ start =>
      if start + Config.frameTicks ≤ s.elapsed then
        (s.setLine { s.line with slot := .idle, receiver := .listening,
                                 cleanFrom := max s.line.cleanFrom s.elapsed }).completeRelay cfg
      else s
    | .idle => s)

/-- The entry at a place is settled and its memory time has passed (R58). -/
def expired (cfg : Configuration) (now : Nat) (slot : Option HeardEntry) : Bool :=
  slot.any fun e => e.relay.settled && e.forgotten cfg now

/-- ENTRY_EXPIRY (R58). -/
def execEntryExpiry (place : Nat) (s : State) : Host.Outcome State Fault Refusal :=
  .next (s.whenConfigured fun cfg =>
    if expired cfg s.elapsed (entryAt s.relay.heard place) then s.writePlace place none else s)

end Sys2Proof.Machine
end

