-- ==== Sys2Proof/Machine/Acceptance.lean ====
section
/-! DEFINITION. Reception at the Line Interface (section 1.2), the link margin (R7), and the Acceptance
Filter (chapter 2): the serial window, the six steps and routing. -/

namespace Sys2Proof.Machine

/-! ## The link margin (R7) -/

/-- The whole 3 dB steps by which a level exceeds the decoding floor, clamped to 0 to 15. -/
def linkMargin (noise level : Rat) : Nat :=
  (clampInt 0 15 ((level - (noise + 6)) / 3).floor).toNat

/-! ## The serial window (R29) -/

/-- How step 5 classifies a serial. -/
inductive SerialClass where
  | new | duplicate | stale
deriving DecidableEq, Repr

/-- The classification of a serial against an entry's window (R29). -/
def classify (window : Option SerialWindow) (serial : Word) : SerialClass :=
  match window with
  | none => .new
  | some w =>
    if serial = w.highest then .duplicate
    else if newer serial w.highest then .new
    else if olderBy serial w.highest ≤ 32 then
      if w.seen.contains (olderBy serial w.highest) then .duplicate else .new
    else .stale

/-- A distance put into a rising list of distances. -/
def insertDistance (k : Nat) : List Nat → List Nat
  | [] => [k]
  | x :: xs => if k ≤ x then k :: x :: xs else x :: insertDistance k xs

/-- The seen set when highest moves up by `d` (R29). -/
def shiftSeen (d : Nat) (seen : List Nat) : List Nat :=
  (d :: seen.map (· + d)).filter (· ≤ 32)

/-- The window after the acceptance of a new serial (R29). -/
def acceptSerial (window : Option SerialWindow) (serial : Word) : SerialWindow :=
  match window with
  | none => ⟨serial, []⟩
  | some w =>
    if newer serial w.highest then ⟨serial, shiftSeen (serial - w.highest).toNat w.seen⟩
    else { w with seen := insertDistance (olderBy serial w.highest) w.seen }

/-- The entry of an origin (R26). -/
def OriginTable.find (o : OriginTable) (id : Byte) : Option OriginEntry :=
  o.entries.find? fun e => e.id = id

/-- The entry of an origin updated by an acceptance. -/
def OriginTable.accept (o : OriginTable) (id : Byte) (serial : Word) : OriginTable :=
  { o with entries := o.entries.map fun e =>
      if e.id = id then { e with window := some (acceptSerial e.window serial) } else e }

/-! ## Routing (R30 to R35) -/

/-- A telegram addresses the station (R31). -/
def addresses (cfg : Configuration) (target : Byte) : Bool :=
  target = 0 || cfg.groups.contains target

/-- An order at the named channels, each on its own. -/
def State.atNamedChannels (cfg : Configuration) (payload : List Byte)
    (f : ChannelConfig → Work → Work) (s : State) : State :=
  s.onEachChannel fun c u =>
    if namesChannel payload c then f (cfg.channel c) (Work.idle u) else Work.idle u

/-- An order routed by its code (R34). -/
def State.routeOrder (cfg : Configuration) (copy : List Byte) (s : State) : State :=
  match orderOf (payloadOf copy) with
  | .record o =>
    s.atNamedChannels cfg (payloadOf copy) fun cc w =>
      w.order cc cfg.stagger (originOf copy) (serialOf copy) (ageOf copy) o
  | .setWindow slot start stop band mode =>
    s.setWindow cfg (originOf copy) (serialOf copy) slot start stop band mode
  | .clearWindow slot => s.clearWindow cfg (originOf copy) (serialOf copy) slot
  | .forceSafe on =>
    s.atNamedChannels cfg (payloadOf copy) fun cc w =>
      w.forceSafe cc cfg.stagger s.monitor.conditions (originOf copy) (serialOf copy) on
  | .release => s.atNamedChannels cfg (payloadOf copy) fun cc w => w.release cc
  | .unknown => s.count .ordersRefused

/-- An accepted telegram routed by kind and target (R17, R30 to R35). -/
def State.route (cfg : Configuration) (copy : List Byte) (s : State) : State :=
  if kindOf copy = 1 then s.beacon cfg (beaconOf (payloadOf copy)) (ageOf copy)
  else if kindOf copy = 2 then
    if addresses cfg (targetOf copy) then s.routeOrder cfg copy else s
  else if kindOf copy = 3 then
    if addresses cfg (targetOf copy) then s.collect cfg (originOf copy) (payloadOf copy) else s
  else s

/-! ## The six steps -/

/-- The window's update and the count of an acceptance (R30). -/
def State.recordAcceptance (copy : List Byte) (s : State) : State :=
  (s.setOrigins (s.origins.accept (originOf copy) (serialOf copy))).count .rxOk

/-- Step 6: the four actions of an acceptance, which are not ordered among themselves (R30). -/
def State.accept (cfg : Configuration) (copy : List Byte) (margin : Nat) (s : State) : State :=
  s.inSomeOrder
    [State.recordAcceptance copy, State.openEntry cfg copy margin s.elapsed, State.restartSilence cfg,
     State.route cfg copy]

/-- A received copy with check result PASS taken through steps 2 to 6 (R26 to R30); the present elapsed
tick is its reception end. -/
def State.filterSound (cfg : Configuration) (copy : List Byte) (margin : Nat) (s : State) : State :=
  match s.origins.find (originOf copy) with
  | none => s.count .rxForeign
  | some entry =>
    match lookup s.relay.heard (originOf copy) (serialOf copy) with
    | some i => s.echo cfg i copy s.elapsed
    | none =>
      if cfg.ageLimit ≤ ageOf copy then s.count .rxAged
      else match classify entry.window (serialOf copy) with
        | .new => s.accept cfg copy margin
        | .duplicate | .stale => s.count .rxStale

/-- A delivered copy at the Acceptance Filter (R25). -/
def State.filter (cfg : Configuration) (copy : List Byte) (margin : Nat) (s : State) : State :=
  if checkPasses copy then s.filterSound cfg copy margin else s.count .rxCheckFail

/-! ## The commands of reception -/

/-- START_MARK: a LISTENING receiver becomes RECEIVING; in any other state the start mark is not taken
(R2, R5, R12). -/
def execStartMark (s : State) : Host.Outcome State Fault Refusal :=
  .next (s.whenConfigured fun _ =>
    match s.line.receiver with
    | .listening => (s.setLine { s.line with receiver := .receiving [] 0 s.elapsed }).turnBusy
    | .receiving _ _ _ | .off => s)

/-- The receiver has finished: it is LISTENING again, and the tick now under way can be clean. -/
def State.endReception (s : State) : State :=
  s.setLine { s.line with receiver := .listening, cleanFrom := max s.line.cleanFrom s.elapsed }

/-- RECEPTION_END: with the bytes it brings, the 32nd byte is taken, 20 ticks after the frame start; the
copy is delivered with its margin and the receiver becomes LISTENING (R2, R3, R7). -/
def execReceptionEnd (bytes : List Byte) (levelSum : Rat) (s : State) :
    Host.Outcome State Fault Refusal :=
  .next (s.whenConfigured fun cfg =>
    match s.line.receiver with
    | .receiving taken sum start =>
      if taken.length + bytes.length = 32 ∧ start + Config.frameTicks ≤ s.elapsed then
        s.endReception.filter cfg (taken ++ bytes)
          (linkMargin s.line.noise ((sum + levelSum) / 32))
      else s
    | .listening | .off => s)

/-- TRUNCATED_FRAME: the receiver gives up at a second tick boundary without a byte, and delivers a
FAIL copy, which the filter discards and counts (R4, R25). -/
def execTruncatedFrame (s : State) : Host.Outcome State Fault Refusal :=
  .next (s.whenConfigured fun _ =>
    match s.line.receiver with
    | .receiving _ _ start =>
      if start + 2 ≤ s.elapsed then s.endReception.count .rxCheckFail else s
    | .listening | .off => s)

end Sys2Proof.Machine
end

