-- ==== Sys2Proof/Machine/Loading.lean ====
section
/-! DEFINITION. The Configuration Loader (chapter 10): a read attempt's outcome, found configured and
found UNCONFIGURED, and the loader's commands. -/

namespace Sys2Proof.Machine

/-! ## A read attempt (R185) -/

/-- How a read attempt ends (R185). -/
inductive AttemptEnd where
  | data (bytes : List Byte)
  | noAnswer
  | busFault
deriving DecidableEq, Repr

/-- The end of an attempt by what it met (R185). -/
def attemptEnd (a : StoreAnswer) : AttemptEnd :=
  if 9 < a.pulsesToFree then .busFault
  else if a.ackDeviceWrite && a.ackWordHigh && a.ackWordLow && a.ackDeviceRead then .data a.bytes
  else .noAnswer

/-- The store's device address (section 10.2). -/
def storeAddress : BitVec 7 := 0x50#7

/-- The bytes read, each acknowledged except the last (R185). -/
def readActions : List Byte → List BusAction
  | [] => []
  | [b] => [.receive b false]
  | b :: bs => .receive b true :: readActions bs

/-- What the loader does on the I2C pair in an attempt (R185). -/
def attemptActions (a : StoreAnswer) : List BusAction :=
  let freeing := List.replicate (min 9 a.pulsesToFree) BusAction.pulse
  if 9 < a.pulsesToFree then freeing
  else
    (if a.pulsesToFree = 0 then [] else freeing ++ [.stop]) ++ [.start, .address storeAddress false] ++
    (if !a.ackDeviceWrite then [.stop]
     else .send 0 :: (if !a.ackWordHigh then [.stop]
      else .send 0 :: (if !a.ackWordLow then [.stop]
       else [.repeatedStart, .address storeAddress true] ++
        (if !a.ackDeviceRead then [.stop] else readActions a.bytes ++ [.stop]))))

/-- An attempt that reads, reads all 66 bytes before it ends (R185). -/
def attemptComplete (a : StoreAnswer) : Bool :=
  match attemptEnd a with
  | .data bytes => bytes.length = 66
  | .noAnswer | .busFault => true

/-- What an attempt meets that no store answers: SDA is high at once and nothing is acknowledged, so it ends
as NO_ANSWER (R185). -/
def silentStore : StoreAnswer := ⟨0, false, false, false, false, []⟩

/-! ## Found configured (R191) -/

/-- The distinct ids of a list in the order in which they first appear (R21). -/
def distinctIds : List Byte → List Byte
  | [] => []
  | x :: xs => x :: (distinctIds xs).filter (· ≠ x)

/-- The window an origin's entry takes up: its entry's own, or its dropped window (R22). -/
def OriginTable.windowFor (o : OriginTable) (id : Byte) : Option SerialWindow :=
  match o.find id with
  | some e => e.window
  | none => (o.dropped.find? fun e => e.id = id).bind (·.window)

/-- The Origin Table rebuilt from the configuration's origin list (R21, R22). -/
def OriginTable.rebuild (o : OriginTable) (origins : List Byte) : OriginTable :=
  let ids := distinctIds origins
  { entries := ids.map fun id => ⟨id, o.windowFor id⟩
    dropped := (o.dropped ++ o.entries).filter fun e => !ids.contains e.id }

/-- Retained countdowns lowered to the new limits (R68). -/
def Timekeeper.lower (cfg : Configuration) (t : Timekeeper) : Timekeeper :=
  { t with hold := min t.hold (60 * cfg.holdLimit), lost := min t.lost (3600 * cfg.lostLimit) }

/-- TIME_INVALID and NO_PROGRAM taken as the Timekeeper and the Program Collector hold them (R147). -/
def State.takeConditions (s : State) : State :=
  s.setMonitor { s.monitor with conditions := { s.monitor.conditions with
    timeInvalid := !s.time.state.valid, noProgram := s.programs.active.isNone } }

/-- The Fallback Monitor takes its conditions and the channels are placed from them (R147, R163). -/
def State.placeChannels (cfg : Configuration) (s : State) : State :=
  let s' := s.takeConditions
  s'.onEachChannel fun c u =>
    (Work.idle u).place (cfg.channel c) cfg.stagger s'.monitor.conditions

/-- The loader's own part of a loading's end: the load state, the report to the Status Port, and the
retention mark, set when VHOLD holds and lost when it does not (R191 to R193). -/
def State.endLoading (l : Load) (vholdHolds : Bool) (s : State) : State :=
  ((s.setLoader { s.loader with load := l, retryAt := none }).setPower
    { s.power with mark := vholdHolds }).noteChange

/-- Found configured: every block acts on the loaded values (R191). The Program Collector's
examination, the placement and the first resolution come in some order (R164). -/
def State.foundConfigured (cfg : Configuration) (noise : Rat) (vholdHolds : Bool) (s : State) : State :=
  let s1 := s.endLoading (.configured cfg) vholdHolds
  let s2 := s1.setLine { s1.line with receiver := .listening }
  let s3 := s2.setOrigins (s2.origins.rebuild cfg.origins)
  let s4 := s3.setRelay { s3.relay with generator := ⟨cfg.stagger, noise, 0⟩ }
  let s5 := s4.setTime (s4.time.lower cfg)
  let s6 := s5.setMonitor { s5.monitor with silence := cfg.silenceStart }
  s6.inSomeOrder [State.examineProgram cfg, State.placeChannels cfg, State.expireAndResolve cfg]

/-- Found UNCONFIGURED: every channel is held, requesting OFF (R165, R192). -/
def State.foundUnconfigured (vholdHolds : Bool) (s : State) : State :=
  (s.endLoading .unconfigured vholdHolds).onEachChannel fun _ u => (Work.idle u).withhold

/-! ## The commands -/

/-- A failed attempt: after the first and the second a further one begins two ticks later, and after the
third the part is found UNCONFIGURED (R186). -/
def State.failAttempt (vholdHolds : Bool) (s : State) : State :=
  if s.loader.attempts < 3 then s.setLoader { s.loader with retryAt := some (s.elapsed + 2) }
  else s.foundUnconfigured vholdHolds

/-- The bytes an attempt read, judged by their check and then by their version (R186). -/
def State.judgeImage (image : List Byte) (noise : Rat) (vholdHolds : Bool) (s : State) : State :=
  if imagePasses image then
    if versionOf image = 1 then s.foundConfigured (configurationOf image) noise vholdHolds
    else s.foundUnconfigured vholdHolds
  else s.failAttempt vholdHolds

/-- An attempt's end: its bytes replace the image buffer and are judged; an attempt that read none has
failed (R185, R186). -/
def State.judgeAttempt (a : StoreAnswer) (noise : Rat) (vholdHolds : Bool) (s : State) : State :=
  let s' := s.setLoader { s.loader with bus := attemptActions a }
  match attemptEnd a with
  | .data image =>
    (s'.setLoader { s'.loader with image := some image }).judgeImage image noise vholdHolds
  | .noAnswer | .busFault => s'.failAttempt vholdHolds

/-- An attempt is under way (R185, R186). -/
def Loader.reading (l : Loader) : Bool := l.load = .loading && l.retryAt.isNone

/-- READ_ATTEMPT_END (R186). -/
def execReadAttemptEnd (answer : StoreAnswer) (noise : Rat) (vholdHolds : Bool) (s : State) :
    Host.Outcome State Fault Refusal :=
  .next (s.whenRunning
    (if s.loader.reading && attemptComplete answer then s.judgeAttempt answer noise vholdHolds else s))

/-- READ_RETRY: two ticks after a failed attempt, a further one begins (R186). -/
def execReadRetry (s : State) : Host.Outcome State Fault Refusal :=
  .next (s.whenRunning
    (match s.loader.load, s.loader.retryAt with
     | .loading, some t =>
       if t ≤ s.elapsed then
         s.setLoader { s.loader with attempts := s.loader.attempts + 1, retryAt := none }
       else s
     | _, _ => s))

end Sys2Proof.Machine
end

