-- ==== Sys2Proof/Machine/Switching.lean ====
section
/-! DEFINITION. The commands of the override records (section 7.3), of the outputs' dwell and of the
local inputs (chapter 9). -/

namespace Sys2Proof.Machine

/-! ## The override record at an elapsed second -/

/-- A controller's step of its record at an elapsed second, one event taken whole (R130). -/
def State.recordTick (cfg : Configuration) (c : Channel) (s : State) : State :=
  s.onChannel c fun u => (Work.idle u).recordTick (cfg.channel c)

/-- DELAY_END: the step of a record in DELAY; at the end of the delay the phase becomes RUN (R130). -/
def execDelayEnd (c : Channel) (s : State) : Host.Outcome State Fault Refusal :=
  .next (s.whenConfigured fun cfg => s.recordTick cfg c)

/-- RUN_END: the step of a record in RUN; at the end of the run the override ends (R131). -/
def execRunEnd (c : Channel) (s : State) : Host.Outcome State Fault Refusal :=
  .next (s.whenConfigured fun cfg => s.recordTick cfg c)

/-- PORTION_END: the step of a CYCLE; at the end of a portion the portion changes (R135). -/
def execPortionEnd (c : Channel) (s : State) : Host.Outcome State Fault Refusal :=
  .next (s.whenConfigured fun cfg => s.recordTick cfg c)

/-! ## The dwell -/

/-- DWELL_END: the dwell's elapsed tick; at its end a deferred request is taken (R172). -/
def execDwellEnd (c : Channel) (s : State) : Host.Outcome State Fault Refusal :=
  .next (s.whenConfigured fun cfg =>
    s.onChannel c fun u => (Work.idle u).dwellTick (cfg.channel c))

/-! ## The local inputs (R175 to R177) -/

/-- The stable count after one sample (R175). -/
def LocalInput.stableAfter (i : LocalInput) (sample : Contact) : Nat :=
  if sample = i.candidate then min 5 (i.stable + 1) else 1

/-- The qualification a level gives. -/
def qualificationOf : Contact → Qualification
  | .asserted => .asserted
  | .released => .released

/-- One sample qualifies a level: the stable count reaches 5 and the level is not the qualification
already (R175). -/
def LocalInput.qualifies (i : LocalInput) (sample : Contact) : Bool :=
  i.stableAfter sample = 5 && i.qualification ≠ qualificationOf sample

/-- The input with one sample taken, not qualifying. -/
def LocalInput.sampled (i : LocalInput) (sample : Contact) : LocalInput :=
  ⟨i.qualification, sample, i.stableAfter sample⟩

/-- The input with a level qualified. -/
def LocalInput.qualify (i : LocalInput) (sample : Contact) : LocalInput :=
  ⟨qualificationOf sample, sample, i.stableAfter sample⟩

/-- The input is sampled at all: its function is HOLD or BOOST (R175, R178). -/
def ChannelConfig.samples (cc : ChannelConfig) : Bool := cc.inputUse ≠ .none

/-- A sample that does not qualify (R175). The sample that does comes as the command named after what it
qualifies, FIRST_QUALIFICATION, QUALIFIED_ASSERTION or QUALIFIED_RELEASE, which counts it; a
LOCAL_INPUT_SAMPLE in its place changes nothing (DESIGN CHOICE, log entry 32). -/
def Work.sample (cc : ChannelConfig) (x : Contact) (w : Work) : Work :=
  if cc.samples && !w.unit.input.qualifies x then
    w.put { w.unit with input := w.unit.input.sampled x }
  else w

/-- The sample that qualifies an assertion: it freezes a HOLD output where it is, and is a press on a
BOOST input (R175 to R177). -/
def Work.assertion (cc : ChannelConfig) (boostMinutes : Nat) (w : Work) : Work :=
  if cc.samples && w.unit.input.qualification = .released && w.unit.input.qualifies .asserted then
    let w' := w.put { w.unit with input := w.unit.input.qualify .asserted }
    if cc.inputUse = .boost then w'.press cc boostMinutes else w'
  else w

/-- The sample that qualifies a release: a HOLD channel's output takes its deferred request when the
dwell is over (R175, R176). -/
def Work.qualifiedRelease (cc : ChannelConfig) (w : Work) : Work :=
  if cc.samples && w.unit.input.qualification = .asserted && w.unit.input.qualifies .released then
    let w' := w.put { w.unit with input := w.unit.input.qualify .released }
    if cc.inputUse = .hold && w'.unit.dwell = 0 then w'.takeDeferred cc else w'
  else w

/-- The sample that first qualifies an input, which is no change of it and no press (R175, R177). -/
def Work.firstQualification (cc : ChannelConfig) (x : Contact) (w : Work) : Work :=
  if cc.samples && w.unit.input.qualification = .unknown && w.unit.input.qualifies x then
    w.put { w.unit with input := w.unit.input.qualify x }
  else w

/-- LOCAL_INPUT_SAMPLE (R175). -/
def execLocalInputSample (c : Channel) (sample : Contact) (s : State) :
    Host.Outcome State Fault Refusal :=
  .next (s.whenConfigured fun cfg =>
    s.onChannel c fun u => (Work.idle u).sample (cfg.channel c) sample)

/-- QUALIFIED_ASSERTION: the fifth low sample (R175). -/
def execQualifiedAssertion (c : Channel) (s : State) : Host.Outcome State Fault Refusal :=
  .next (s.whenConfigured fun cfg =>
    s.onChannel c fun u => (Work.idle u).assertion (cfg.channel c) cfg.boostLength)

/-- QUALIFIED_RELEASE: the fifth high sample (R176). -/
def execQualifiedRelease (c : Channel) (s : State) : Host.Outcome State Fault Refusal :=
  .next (s.whenConfigured fun cfg =>
    s.onChannel c fun u => (Work.idle u).qualifiedRelease (cfg.channel c))

/-- FIRST_QUALIFICATION: the fifth stable sample from UNKNOWN (R175). -/
def execFirstQualification (c : Channel) (sample : Contact) (s : State) :
    Host.Outcome State Fault Refusal :=
  .next (s.whenConfigured fun cfg =>
    s.onChannel c fun u => (Work.idle u).firstQualification (cfg.channel c) sample)

end Sys2Proof.Machine
end

