-- ==== Sys2Proof/Machine/Flags.lean ====
section
/-! DEFINITION. What the part shows: the status record's bytes (section 12.8), its bits on the serial
line, and the output pins. -/

namespace Sys2Proof.Machine

/-! ## The status record (R200, R204) -/

/-- A number of 16 bits as two bytes. -/
def twoBytes (n : Nat) : List Byte := bytesOf (BitVec.ofNat 16 n)

/-- A number of 24 bits as three bytes. -/
def threeBytes (n : Nat) : List Byte := BitVec.ofNat 8 (n / 65536) :: twoBytes n

/-- A bit's weight when it is set. -/
def weight (b : Bool) (w : Nat) : Nat := if b then w else 0

/-- The code of a time state. -/
def TimeState.code : TimeState → Nat
  | .unset => 0 | .synced => 1 | .holdover => 2 | .lost => 3

/-- The code of a channel state. -/
def ChannelState.code : ChannelState → Nat
  | .normal => 0 | .fallbackHold => 1 | .returnWait _ => 2 | .releaseWait => 3

/-- A channel's byte from its four fields. -/
def channelByte (output : Level) (state kind phase : Nat) : Byte :=
  BitVec.ofNat 8 (weight (output = .on) 1 + 2 * state + 8 * kind + 32 * phase)

/-- A channel's byte outside UNCONFIGURED; an unused channel is written OFF, NORMAL, NONE (R204). -/
def shownChannel (cc : ChannelConfig) (u : ChannelUnit) : Byte :=
  if cc.used then
    channelByte u.output u.state.code u.override.imposed.kind u.override.imposed.phase
  else channelByte .off 0 0 0

/-- The sixteen counters in the order of R201's table. -/
def Counters.list (c : Counters) : List Nat :=
  [c.rxOk, c.rxCheckFail, c.rxForeign, c.rxStale, c.rxAged, c.echoes, c.relayed, c.suppressed,
   c.relayDropped, c.ordersApplied, c.ordersRefused, c.progComplete, c.progDiscarded, c.timeAccepted,
   c.timeRejected, c.steps]

/-- An id field: the id when present, 0 when absent. -/
def shownId (p : Option Program) : List Byte :=
  match p with
  | some q => bytesOf q.id
  | none => [0, 0]

/-- The station conditions' byte. -/
def conditionByte (v : Conditions) : Byte :=
  BitVec.ofNat 8 (weight v.timeInvalid 1 + weight v.noProgram 2 + weight v.silence 4 +
    weight v.mainsFreq 8 + weight v.timeStep 16)

/-- The FORCED byte. -/
def forcedByte (v : Six ChannelUnit) : Byte :=
  BitVec.ofNat 8 (weight v.ch1.forced 1 + weight v.ch2.forced 2 + weight v.ch3.forced 4 +
    weight v.ch4.forced 8 + weight v.ch5.forced 16 + weight v.ch6.forced 32)

/-- The fields that are shown alike in every state: time, day, second of day and program ids. -/
def timeFields (s : State) : List Byte :=
  BitVec.ofNat 8 (s.time.state.code + 16 * s.time.today.code) :: bytesOf s.time.clock.day ++
    threeBytes (s.time.clock.tick / 100) ++ shownId s.programs.active ++ shownId s.programs.next

/-- The record flags. -/
def recordFlags (s : State) (configured : Bool) : Byte :=
  BitVec.ofNat 8 (weight configured 1 + weight s.programs.active.isSome 2 +
    weight s.programs.next.isSome 4)

/-- The 52 field bytes of a record (R200, R204). -/
def recordFields (s : State) : List Byte :=
  match s.loader.load with
  | .configured cfg =>
    [recordFlags s true, BitVec.ofNat 8 s.register] ++ timeFields s ++
    [conditionByte s.monitor.conditions, forcedByte s.channels] ++
    channelList.map (fun c => shownChannel (cfg.channel c) (s.channels.get c)) ++
    s.counters.list.flatMap twoBytes
  | .loading | .unconfigured =>
    [recordFlags s false, 1] ++ timeFields s ++ [0, 0] ++
    channelList.map (fun _ => channelByte .off 1 0 0) ++ List.replicate 32 0

/-- The 56 bytes of the record (section 12.8). -/
def statusRecord (s : State) : List Byte :=
  let covered := 52 :: recordFields s
  0xA5 :: covered ++ bytesOf (crc16 covered)

/-! ## The pins -/

/-- One character on STX: a low start bit, eight data bits from the least significant, a high stop bit
(R196). -/
def character (b : Byte) : List Bool := false :: (List.range 8).map (fun i => b.getLsbD i) ++ [true]

/-- The bits of a record on STX, with no idle time between characters (R196). -/
def serialBits (record : List Byte) : List Bool := record.flatMap character

/-- STX is driven; it is not while NRESET is held low or during a supply failure (R196). -/
def State.stxDriven (s : State) : Bool := s.running

/-- Bit times at 9600 baud in one tick of 10 ms (R196). -/
def bitsPerTick : Nat := 96

/-- STX in one of the 96 bit times of the tick under way, counted from 0: high is `true`, and `none` is not
driven. It stands high at the idle level through LOADING and whenever no record is being sent; a record's
bits follow one another from the tick at which its first character started (R196). -/
def State.stxLevel (s : State) (bitTime : Nat) : Option Bool :=
  if s.stxDriven then
    match s.loader.load, s.status.emission with
    | .loading, _ | _, none => some true
    | _, some e =>
      some ((serialBits e.record).getD (bitsPerTick * (s.elapsed - e.startedAt) + bitTime) true)
  else none

/-- A relay pin sinks current while its channel's output is ON and the part is supplied and not held
in reset; otherwise it is released (R179, R193). -/
def State.relaySinks (s : State) (c : Channel) : Bool := s.running && (s.channels.get c).output = .on

/-- The register lines REG2, REG1, REG0: the register index less one (R180). The spec does not say what the
lines carry during a supply failure or while NRESET is held low; the model keeps the last index on them until
the restart (DESIGN CHOICE, log entry 15). -/
def State.registerLines (s : State) : BitVec 3 := BitVec.ofNat 3 (s.register - 1)

end Sys2Proof.Machine
end

