-- ==== Sys2Proof/Machine/Reporting.lean ====
section
/-! DEFINITION. The Status Port (chapter 11) and its commands. -/

namespace Sys2Proof.Machine

/-- The periodic countdown after a second's end (R199). -/
def StatusPort.countdown (p : StatusPort) : Nat := p.periodic - 1

/-- A record is due (R199). -/
def StatusPort.due (p : StatusPort) : Bool := p.changePending || p.countdown = 0

/-- The Status Port at a second's end (R199): the countdown is decreased, and a due record is formed and
its emission started when the line is IDLE. -/
def State.statusSecond (s : State) : State :=
  if s.status.due && s.status.emission.isNone then
    s.setStatus ⟨some ⟨statusRecord s, s.elapsed⟩, false, Config.periodicSeconds⟩
  else s.setStatus { s.status with periodic := s.status.countdown }

/-- STATUS_SECOND_END, once loading has ended (R199). -/
def execStatusSecondEnd (s : State) : Host.Outcome State Fault Refusal :=
  .next (s.whenRunning (if s.loader.load = .loading then s else s.statusSecond))

/-- Bit times of a record on the line: 56 characters of ten (R196, section 12.8). -/
def recordBits : Nat := 560

/-- The last character of the record has left the line by this tick boundary (R199): 560 bit times are
58.3 ms, so the first such boundary is the sixth after the start (log entry 24). -/
def Emission.over (e : Emission) (now : Nat) : Bool :=
  recordBits ≤ bitsPerTick * (now - e.startedAt)

/-- EMISSION_END (R199). -/
def execEmissionEnd (s : State) : Host.Outcome State Fault Refusal :=
  .next (s.whenRunning
    (match s.status.emission with
     | some e => if e.over s.elapsed then s.setStatus { s.status with emission := none } else s
     | none => s))

end Sys2Proof.Machine
end

