-- ==== Sys2Proof/Machine/Restarting.lean ====
section
/-! DEFINITION. The restarts, the supply and the retention domain (section 10.6, R67), with their
commands. -/

namespace Sys2Proof.Machine

/-! ## The restarts -/

/-- A cold restart: every block takes its restart state and the retained state is cleared; the queue and
the order of meetings are not the part's (R193, R194). -/
def State.coldRestarted (s : State) : State :=
  { State.reset with pending := s.pending, meetings := s.meetings }

/-- The Timekeeper at a warm restart: SYNCED becomes HOLDOVER, and the slew and the candidate are not
kept (R68). -/
def Timekeeper.warm (t : Timekeeper) : Timekeeper :=
  { t with slew := 0, candidate := none, state := if t.state = .synced then .holdover else t.state }

/-- A warm restart: the retained items are kept and everything else takes its restart state (R194). -/
def State.warmRestarted (s : State) : State :=
  { State.reset with
    pending := s.pending, meetings := s.meetings, power := ⟨true, false, true, 0⟩,
    origins := s.origins, time := s.time.warm, programs := { s.programs with staging := none },
    resolver := { Resolver.cold with windows := s.resolver.windows } }

/-- A cold restart may come: by the release of NRESET after it was held low, with the supply there or
back; or by the rise of VDD with the retention mark absent (R193). -/
def Power.restartsCold (p : Power) : Bool := p.nresetLow || !p.vddUp && !p.mark

/-- A warm restart may come: by the rise of VDD with the retention mark present and NRESET high (R193). -/
def Power.restartsWarm (p : Power) : Bool := !p.vddUp && p.mark && !p.nresetLow

/-- COLD_RESTART (R193). -/
def execColdRestart (s : State) : Host.Outcome State Fault Refusal :=
  .next (if s.power.restartsCold then s.coldRestarted else s)

/-- WARM_RESTART (R193). -/
def execWarmRestart (s : State) : Host.Outcome State Fault Refusal :=
  .next (if s.power.restartsWarm then s.warmRestarted else s)

/-! ## The supply -/

/-- A transmission, a reception and an emission under way are cut off (R1, R193, R197). -/
def State.cutOff (s : State) : State :=
  (s.setLine { s.line with receiver := .off, slot := .idle }).setStatus
    { s.status with emission := none }

/-- The retained state cleared (R193): the clock and the time state, the Origin Table, the programs and
the window table as a cold restart leaves them. -/
def State.clearRetained (s : State) : State :=
  (((s.setTime .cold).setOrigins .cold).setPrograms
    { s.programs with next := none, active := none }).setResolver
      { s.resolver with windows := List.replicate Config.windowSlots none }

/-- SUPPLY_FAILURE: every block stops and what is under way is cut off; while NRESET is held it changes
nothing further (R193). -/
def execSupplyFailure (s : State) : Host.Outcome State Fault Refusal :=
  .next (if s.power.vddUp then
      if s.power.nresetLow then s.setPower { s.power with vddUp := false }
      else (s.setPower { s.power with vddUp := false, crystalTicks := 0 }).cutOff
    else s)

/-- NRESET_ASSERTED: every block is held stopped and the retention domain is cleared with its mark
(R193). -/
def execNresetAsserted (s : State) : Host.Outcome State Fault Refusal :=
  .next ((s.setPower { s.power with nresetLow := true, mark := false }).clearRetained.cutOff)

/-- VHOLD_LOSS: the mark is cleared, and while VDD is below 2.8 V the retained state with it (R193). -/
def execVholdLoss (s : State) : Host.Outcome State Fault Refusal :=
  .next (let s' := s.setPower { s.power with mark := false }
    if s.power.vddUp then s' else s'.clearRetained)

/-- A supply interruption that the retention domain bridges (R67). -/
def State.bridged (s : State) : Bool := !s.power.vddUp && !s.power.nresetLow && s.power.mark

/-- The retained Timekeeper at a tick of the crystal: one tick without slew, and at every hundredth the
countdowns (R67). -/
def Timekeeper.retainedTick (t : Timekeeper) (crystalTicks : Nat) : Timekeeper :=
  if crystalTicks % 100 = 0 then (t.advance 1).holdTick.lostTick else t.advance 1

/-- RETAINED_CLOCK_TICK (R67). -/
def execRetainedClockTick (s : State) : Host.Outcome State Fault Refusal :=
  .next (if s.bridged then
      (s.setPower { s.power with crystalTicks := s.power.crystalTicks + 1 }).setTime
        (s.time.retainedTick (s.power.crystalTicks + 1))
    else s)

end Sys2Proof.Machine
end

