-- ==== Sys2Proof/Machine/Tick.lean ====
section
/-! DEFINITION. One tick of the crystal, which is what a step does when no command waits: the elapsed
timebase counts, and the events that the part's own state brings about at that tick are put into the
queue, each a command of the table. A read attempt that has met no answer ends before the tick passes. The events of a tick come in the order of the next meeting. -/

namespace Sys2Proof.Machine

/-- A command, when its event comes. -/
def whenever (b : Bool) (i : Instr) : List Instr := if b then [i] else []

/-- The Timekeeper's commands at a tick: the advance (R63), and at a second's end the countdowns that
run (R66, R69); one that does not run is not stepped at it (log entry 27). -/
def State.timeEvents (s : State) : List Instr :=
  .clockAdvance ::
    whenever (endsSecond s.elapsed && s.loader.load ≠ .unconfigured && 0 < s.time.hold)
      .holdCountdownExpiry ++
    whenever (endsSecond s.elapsed && s.loader.load ≠ .unconfigured && 0 < s.time.lost)
      .lostCountdownExpiry

/-- The loader's further attempt (R186). -/
def State.loaderEvents (s : State) : List Instr :=
  match s.loader.load, s.loader.retryAt with
  | .loading, some t => whenever (t ≤ s.elapsed) .readRetry
  | _, _ => []

/-- The Status Port's commands at a tick (R199). -/
def State.statusEvents (s : State) : List Instr :=
  whenever (s.status.emission.any fun e => e.over s.elapsed) .emissionEnd ++
  whenever (endsSecond s.elapsed && s.loader.load ≠ .loading) .statusSecondEnd

/-- The commands of one place of the Heard Table: the tick at which its entry falls due (R49), and its
expiry (R58). -/
def placeEvents (cfg : Configuration) (now : Nat) (slot : Option HeardEntry) (i : Nat) : List Instr :=
  whenever (slot.any fun e => match e.relay with
    | .pending _ _ due => due = now
    | _ => false) (.entryFallsDue i) ++
  whenever (expired cfg now slot) (.entryExpiry i)

/-- The commands of the line and of the Relay Engine at a tick (R13, R49, R52, R58). -/
def State.relayEvents (cfg : Configuration) (s : State) : List Instr :=
  whenever (match s.line.slot with
    | .sending _ start => start + Config.frameTicks ≤ s.elapsed
    | .idle => false) .transmissionCompletion ++
  whenever (match s.relay.access with
    | .backoff ends => ends ≤ s.elapsed
    | _ => false) .backoffEnd ++
  (s.relay.heard.zipIdx.flatMap fun p => placeEvents cfg s.elapsed p.1 p.2)

/-- The command that steps an override record, named by what its countdown is (R130). A record of kind NONE
at the tick is not stepped at it, so the countdowns that an order or a press then sets at that same tick take
their first decrease a second later, as if the step had been taken first (DESIGN CHOICE of one of R144's two
orders, log entry 27). -/
def recordEvents (c : Channel) : Imposed → List Instr
  | .none => []
  | .force _ (.delay _ _) => [.delayEnd c]
  | .force _ (.run _) => [.runEnd c]
  | .cycle _ => [.portionEnd c]

/-- A channel's commands at a tick: its dwell (R172), and at a second's end its override record (R130) and
its return countdown (R160). -/
def channelEvents (second : Bool) (u : ChannelUnit) (c : Channel) : List Instr :=
  whenever (0 < u.dwell) (.dwellEnd c) ++
  (if second then recordEvents c u.override.imposed else []) ++
  whenever (second && match u.state with
    | .returnWait _ => true
    | _ => false) (.returnCountdownExpiry c)

/-- The Fallback Monitor's commands at a tick (R150 to R153); a countdown that does not run is not stepped at
a second's end (log entry 27). -/
def State.monitorEvents (s : State) : List Instr :=
  let m := s.monitor
  whenever (m.mains.nextSpan ≤ s.elapsed) .mainsNoCrossing ++
  whenever (m.mains.raises s.elapsed && !m.conditions.mainsFreq) .mainsFreqRaise ++
  whenever (m.mains.clears s.elapsed && m.conditions.mainsFreq) .mainsFreqClear ++
  whenever (endsSecond s.elapsed && m.silence.any fun n => 0 < n) .silenceExpiry ++
  whenever (endsSecond s.elapsed && 0 < m.stepHold) .stepHoldExpiry

/-- The commands of a CONFIGURED part's blocks at a tick; no assembly countdown runs while no record is held
(R92, log entry 27). -/
def State.configuredEvents (cfg : Configuration) (s : State) : List Instr :=
  s.relayEvents cfg ++
  whenever (endsSecond s.elapsed && s.programs.staging.isSome) .assemblyTimeout ++
  (channelList.flatMap fun c => channelEvents (endsSecond s.elapsed) (s.channels.get c) c) ++
  s.monitorEvents

/-- The commands that a tick brings about, by the state at that tick. -/
def State.tickEvents (s : State) : List Instr :=
  s.timeEvents ++ s.loaderEvents ++
  (match s.loader.load with
   | .configured cfg => s.configuredEvents cfg
   | .loading | .unconfigured => []) ++
  s.statusEvents

/-- A channel at the next tick: no countdown of it has been set at that tick yet. -/
def ChannelUnit.nextTick (u : ChannelUnit) : ChannelUnit := { u with dwellSet := false, returnSet := false }

/-- The elapsed timebase counts one tick (R62); no countdown has been set at it yet. -/
def State.elapse (s : State) : State :=
  ((s.setElapsed (s.elapsed + 1)).setChannels (Six.of fun c => (s.channels.get c).nextTick)).setMonitor
    { s.monitor with stepHoldSet := false }

/-- The end of a read attempt to which no store has answered within the tick in which it began: at 100 kHz an
attempt is over in less than a tick, so it ends before the next (R184, R185; log entry 19). Whether VHOLD
holds then is a free value, the parity of the next meeting's number (log entries 5, 16); the line level is of
no account, as a part is not found configured without an image. -/
def State.endUnanswered (s : State) : State :=
  s.met.setPending [.readAttemptEnd silentStore 0 (s.meeting % 2 = 1)]

/-- What passes on an empty queue. While the part runs, a read attempt under way ends unanswered, and
otherwise a tick of the crystal passes: the timebase counts and the tick's events are queued. Through a
bridged supply interruption the retained clock's tick is queued (R67); otherwise nothing happens. -/
def State.tick (s : State) : State :=
  if s.running then
    if s.loader.reading then s.endUnanswered
    else
      let s' := s.elapse
      s'.met.setPending (arrange s'.meeting s'.tickEvents)
  else if s.bridged then s.setPending [.retainedClockTick]
  else s

end Sys2Proof.Machine
end

