-- ==== Sys2Proof/Machine/Dispatch.lean ====
section
/-! DEFINITION. The meaning of each command: one arm per constructor of `Instr`. -/

namespace Sys2Proof.Machine

def exec (i : Instr) (s : State) : Host.Outcome State Fault Refusal :=
  match i with
  | .coldRestart => Sys2Proof.Machine.execColdRestart s
  | .warmRestart => Sys2Proof.Machine.execWarmRestart s
  | .supplyFailure => Sys2Proof.Machine.execSupplyFailure s
  | .nresetAsserted => Sys2Proof.Machine.execNresetAsserted s
  | .vholdLoss => Sys2Proof.Machine.execVholdLoss s
  | .retainedClockTick => Sys2Proof.Machine.execRetainedClockTick s
  | .readAttemptEnd answer noise vholdHolds => Sys2Proof.Machine.execReadAttemptEnd answer noise vholdHolds s
  | .readRetry => Sys2Proof.Machine.execReadRetry s
  | .startMark => Sys2Proof.Machine.execStartMark s
  | .receptionEnd bytes levelSum => Sys2Proof.Machine.execReceptionEnd bytes levelSum s
  | .truncatedFrame => Sys2Proof.Machine.execTruncatedFrame s
  | .carrierAppears => Sys2Proof.Machine.execCarrierAppears s
  | .cleanTick level => Sys2Proof.Machine.execCleanTick level s
  | .entryFallsDue place => Sys2Proof.Machine.execEntryFallsDue place s
  | .backoffEnd => Sys2Proof.Machine.execBackoffEnd s
  | .transmissionCompletion => Sys2Proof.Machine.execTransmissionCompletion s
  | .entryExpiry place => Sys2Proof.Machine.execEntryExpiry place s
  | .clockAdvance => Sys2Proof.Machine.execClockAdvance s
  | .holdCountdownExpiry => Sys2Proof.Machine.execHoldCountdownExpiry s
  | .lostCountdownExpiry => Sys2Proof.Machine.execLostCountdownExpiry s
  | .assemblyTimeout => Sys2Proof.Machine.execAssemblyTimeout s
  | .delayEnd channel => Sys2Proof.Machine.execDelayEnd channel s
  | .runEnd channel => Sys2Proof.Machine.execRunEnd channel s
  | .portionEnd channel => Sys2Proof.Machine.execPortionEnd channel s
  | .silenceExpiry => Sys2Proof.Machine.execSilenceExpiry s
  | .stepHoldExpiry => Sys2Proof.Machine.execStepHoldExpiry s
  | .mainsCrossing phase => Sys2Proof.Machine.execMainsCrossing phase s
  | .mainsNoCrossing => Sys2Proof.Machine.execMainsNoCrossing s
  | .mainsFreqRaise => Sys2Proof.Machine.execMainsFreqRaise s
  | .mainsFreqClear => Sys2Proof.Machine.execMainsFreqClear s
  | .returnCountdownExpiry channel => Sys2Proof.Machine.execReturnCountdownExpiry channel s
  | .dwellEnd channel => Sys2Proof.Machine.execDwellEnd channel s
  | .qualifiedAssertion channel => Sys2Proof.Machine.execQualifiedAssertion channel s
  | .qualifiedRelease channel => Sys2Proof.Machine.execQualifiedRelease channel s
  | .firstQualification channel sample => Sys2Proof.Machine.execFirstQualification channel sample s
  | .statusSecondEnd => Sys2Proof.Machine.execStatusSecondEnd s
  | .emissionEnd => Sys2Proof.Machine.execEmissionEnd s
  | .localInputSample channel sample => Sys2Proof.Machine.execLocalInputSample channel sample s

end Sys2Proof.Machine
end

