-- ==== Sys2Proof/Safety.lean ====
section
/-! DEFINITION. The words in which statements about the part are made: the part running CONFIGURED, what
a command leaves unchanged, and the invariants the rules give the state. -/

namespace Sys2Proof.Machine

/-! ## Running -/

/-- The part runs CONFIGURED with these values (R191, R193). -/
abbrev State.runsWith (s : State) (cfg : Configuration) : Prop :=
  s.running = true ∧ s.loader.load = .configured cfg

/-- An entry PENDING with this due tick is due (R49): the tick is past, or its falling due has been taken
(log entry 26). -/
abbrev State.dueAt (s : State) (tick : Nat) : Prop := tick < s.elapsed ∨ tick ≤ s.relay.dueTo

/-- A PENDING entry is due (R49). -/
abbrev State.someEntryDue (s : State) : Prop :=
  ∃ i e copy received due, entryAt s.relay.heard i = some e ∧ e.relay = .pending copy received due ∧
    s.dueAt due

/-- A command that comes from outside the part and not by its tick: from the supply, the store, the line,
the mains and the local input pins (log entry 6). -/
def fromOutside : Instr → Bool
  | .coldRestart | .warmRestart | .supplyFailure | .nresetAsserted | .vholdLoss => true
  | .readAttemptEnd _ _ _ | .startMark | .receptionEnd _ _ | .truncatedFrame | .carrierAppears => true
  | .cleanTick _ | .mainsCrossing _ | .localInputSample _ _ => true
  | .qualifiedAssertion _ | .qualifiedRelease _ | .firstQualification _ _ => true
  | .retainedClockTick | .readRetry | .entryFallsDue _ | .backoffEnd | .transmissionCompletion => false
  | .entryExpiry _ | .clockAdvance | .holdCountdownExpiry | .lostCountdownExpiry | .assemblyTimeout => false
  | .delayEnd _ | .runEnd _ | .portionEnd _ | .silenceExpiry | .stepHoldExpiry | .mainsNoCrossing => false
  | .mainsFreqRaise | .mainsFreqClear | .returnCountdownExpiry _ | .dwellEnd _ => false
  | .statusSecondEnd | .emissionEnd => false

/-- The programs after an examination of the pending one (R95, R96). -/
def Collector.examined (t : Timekeeper) (k : Collector) : Collector :=
  match k.next with
  | some p =>
    if p.activation = ⟨0, 0⟩ ∨ t.state.valid = true ∧ t.clock.hasReached p.activation = true then
      { k with active := some p, next := none }
    else k
  | none => k

/-- A reception of 32 bytes has reached its end, 20 ticks after its start mark (R2). -/
abbrev State.endsReception (s : State) (bytes : List Byte) : Prop :=
  bytes.length = 32 ∧ ∃ start, s.line.receiver = .receiving [] 0 start ∧ start + 20 ≤ s.elapsed

/-- The Line Interface after a reception: it listens again, and the tick under way can be clean. -/
abbrev Line.listeningAgain (l : Line) (now : Nat) : Line :=
  { l with receiver := .listening, cleanFrom := max l.cleanFrom now }

/-- A sound copy of a known origin that is no echo, is not aged and is new to the window: step 6 accepts
it (R25 to R30). -/
abbrev State.accepts (s : State) (cfg : Configuration) (copy : List Byte) : Prop :=
  checkPasses copy = true ∧ lookup s.relay.heard (originOf copy) (serialOf copy) = none ∧
  ageOf copy < cfg.ageLimit ∧
  ∃ e, s.origins.find (originOf copy) = some e ∧ classify e.window (serialOf copy) = .new

/-! ## Frames -/

/-- The parts of the state. -/
inductive Part where
  | pending | meetings | power | elapsed | line | origins | relay | time | programs | resolver
  | channels | register | monitor | loader | status | counters
deriving DecidableEq, Repr

/-- One part of the state is the same after as before. -/
abbrev State.same (before after : State) : Part → Prop
  | .pending => after.pending = before.pending
  | .meetings => after.meetings = before.meetings
  | .power => after.power = before.power
  | .elapsed => after.elapsed = before.elapsed
  | .line => after.line = before.line
  | .origins => after.origins = before.origins
  | .relay => after.relay = before.relay
  | .time => after.time = before.time
  | .programs => after.programs = before.programs
  | .resolver => after.resolver = before.resolver
  | .channels => after.channels = before.channels
  | .register => after.register = before.register
  | .monitor => after.monitor = before.monitor
  | .loader => after.loader = before.loader
  | .status => after.status = before.status
  | .counters => after.counters = before.counters

/-- Every part but the named ones is the same after as before. -/
def State.keepsAllBut (named : List Part) (before after : State) : Prop :=
  ∀ p, p ∉ named → before.same after p

/-- The Status Port is as before but that change pending may have been set (R198). -/
abbrev StatusPort.mayNote (before after : StatusPort) : Prop :=
  after.emission = before.emission ∧ after.periodic = before.periodic ∧
    (before.changePending = true → after.changePending = true)

/-! ## Configuration values (R187 to R190) -/

/-- A channel record within its ranges. -/
abbrev ChannelConfig.inRange (cc : ChannelConfig) : Prop :=
  cc.returnBase ≤ 255 ∧ cc.returnSpread ≤ 255 ∧ 1 ≤ cc.minDwell ∧ cc.minDwell ≤ 60

/-- The station values within their ranges, and the limits reconciled (R188). -/
abbrev Configuration.inRange (cfg : Configuration) : Prop :=
  (8 ≤ cfg.relaySpread ∧ cfg.relaySpread ≤ 63) ∧ (1 ≤ cfg.suppression ∧ cfg.suppression ≤ 7) ∧
  (60 ≤ cfg.heardMemory ∧ cfg.heardMemory ≤ 3600) ∧ (1000 ≤ cfg.ageLimit ∧ cfg.ageLimit ≤ 65000) ∧
  (100 ≤ cfg.beaconMaxAge ∧ cfg.beaconMaxAge ≤ 30000) ∧
  (10 ≤ cfg.stepThreshold ∧ cfg.stepThreshold ≤ 6000) ∧
  (10 ≤ cfg.holdLimit ∧ cfg.holdLimit ≤ 1440) ∧ (1 ≤ cfg.lostLimit ∧ cfg.lostLimit ≤ 168) ∧
  cfg.holdLimit ≤ 60 * cfg.lostLimit ∧ cfg.silenceLimit ≤ 1440 ∧ cfg.stagger ≤ 255 ∧
  (1 ≤ cfg.fallbackRegister ∧ cfg.fallbackRegister ≤ 8) ∧
  (1 ≤ cfg.boostLength ∧ cfg.boostLength ≤ 240) ∧
  (1 ≤ cfg.origins.length ∧ cfg.origins.length ≤ 4) ∧
  (1 ≤ cfg.groups.length ∧ cfg.groups.length ≤ 8) ∧ (∀ g ∈ cfg.groups, g ≠ 0) ∧
  ∀ c ∈ channelList, (cfg.channel c).inRange

/-- The loaded values, if any, are within their ranges. -/
abbrev Loader.inRange (l : Loader) : Prop :=
  match l.load with
  | .configured cfg => cfg.inRange
  | .loading | .unconfigured => True

/-! ## Programs and the register index (R88, R94, R114, R180) -/

/-- A program as stored: clamped, with an activation tick of a day. -/
abbrev Program.inRange (p : Program) : Prop :=
  p.activation.tick < Config.dayTicks ∧ p.defaultBand ≤ 15 ∧
  (p.bands.length = 16 ∧ ∀ b ∈ p.bands, 1 ≤ b.register ∧ b.register ≤ 8) ∧
  (p.grid.length = 192 ∧ ∀ n ∈ p.grid, n ≤ 15)

/-- The programs held are clamped, and a pending one is newer than the active one (R94). -/
abbrev Collector.ordered (k : Collector) : Prop :=
  (∀ p ∈ k.next, p.inRange) ∧ (∀ p ∈ k.active, p.inRange) ∧
  ∀ p ∈ k.next, ∀ q ∈ k.active, newer p.id q.id = true

/-- The register index lies in 1 to 8 and is what the resolver last handed (R115, R180). -/
abbrev State.indexSound (s : State) : Prop :=
  s.loader.inRange ∧ s.programs.ordered ∧ 1 ≤ s.register ∧ s.register ≤ 8 ∧
    s.resolver.index = s.register

/-! ## The window table (R103, R104) -/

/-- A window as stored: its minutes and band within their ranges, and its end after its start. -/
abbrev Window.sound (w : Window) : Prop :=
  w.start.minute ≤ 1439 ∧ w.stop.minute ≤ 1439 ∧ w.band ≤ 15 ∧ w.start.before w.stop = true

/-- The window table has 24 slots, and every window in it is sound. -/
abbrev State.windowsSound (s : State) : Prop :=
  s.resolver.windows.length = Config.windowSlots ∧ ∀ slot ∈ s.resolver.windows, ∀ w ∈ slot, w.sound

/-! ## The network clock (R63, R80) -/

/-- The slew remaining a part may hold: at most the step threshold while configuration values are
held, and none otherwise. -/
abbrev Loader.slewBound (l : Loader) : Nat :=
  match l.load with
  | .configured cfg => cfg.stepThreshold
  | .loading | .unconfigured => 0

/-- The clock lies within a day, and the slew remaining within the step threshold. -/
abbrev State.clockSound (s : State) : Prop :=
  s.time.clock.tick < Config.dayTicks ∧ s.time.slew.natAbs ≤ s.loader.slewBound

/-! ## Serial windows (R21, R22, R29) -/

/-- Distances 1 to 32 in rising order, none twice. -/
abbrev SerialWindow.sound (w : SerialWindow) : Prop :=
  w.seen.Pairwise (· < ·) ∧ ∀ k ∈ w.seen, 1 ≤ k ∧ k ≤ 32

/-- At most four entries, no origin twice, and every serial window sound. -/
abbrev OriginTable.sound (o : OriginTable) : Prop :=
  o.entries.length ≤ 4 ∧ (o.entries.map (·.id)).Nodup ∧
  (∀ e ∈ o.entries, ∀ w ∈ e.window, w.sound) ∧ ∀ e ∈ o.dropped, ∀ w ∈ e.window, w.sound

/-- The Origin Table is sound. -/
abbrev State.originsSound (s : State) : Prop := s.origins.sound

/-! ## The Heard Table (R39, R40, R42, R45 to R47, R54) -/

/-- A stored copy is 30 bytes with the entry's key and a budget of at least 1. -/
abbrev HeardEntry.storesSoundly (e : HeardEntry) (copy : List Byte) : Prop :=
  copy.length = 30 ∧ 1 ≤ budgetOf copy ∧ originOf copy = e.origin ∧ serialOf copy = e.serial

/-- An entry's echo count stops at 15, stays below the suppression threshold while it is PENDING, and
its stored copy is sound. -/
abbrev HeardEntry.sound (cfg : Configuration) (e : HeardEntry) : Prop :=
  e.echoes ≤ 15 ∧
  match e.relay with
  | .pending copy _ _ => e.storesSoundly copy ∧ e.echoes < cfg.suppression
  | .sending copy _ => e.storesSoundly copy
  | .relayed | .suppressed | .noRelay => True

/-- No two places hold the same key. -/
abbrev noKeyTwice (heard : List (Option HeardEntry)) : Prop :=
  (heard.filterMap fun slot => slot.map fun e => (e.origin, e.serial)).Nodup

/-- The Heard Table holds 64 places, no key twice and sound entries, and is empty while no
configuration values are held; no due tick to come has been taken as reached. -/
abbrev State.heardSound (s : State) : Prop :=
  s.relay.heard.length = Config.heardPlaces ∧ noKeyTwice s.relay.heard ∧ s.relay.dueTo ≤ s.elapsed ∧
  match s.loader.load with
  | .configured cfg => 1 ≤ cfg.suppression ∧ ∀ slot ∈ s.relay.heard, ∀ e ∈ slot, e.sound cfg
  | .loading | .unconfigured => ∀ slot ∈ s.relay.heard, slot = none

/-! ## Loading (R184, R186) -/

/-- How far loading has come: at most three attempts are made, the first at the restart, and each begins two
ticks after the one before it ended, which ends in the tick in which it began (log entry 19). -/
abbrev State.loadingSound (s : State) : Prop :=
  s.running = true → s.loader.load = .loading →
    1 ≤ s.loader.attempts ∧ s.loader.attempts ≤ 3 ∧
    match s.loader.retryAt with
    | none => s.elapsed ≤ 2 * (s.loader.attempts - 1)
    | some at_ => s.loader.attempts ≤ 2 ∧ at_ ≤ 2 * s.loader.attempts ∧
        (s.elapsed < at_ ∨ s.elapsed = at_ ∧ Instr.readRetry ∈ s.pending)

/-! ## The line and the transmit slot (R1, R2, R9, R10, R12, R13, R40, R50 to R53, R56) -/

/-- The entry is SENDING. -/
def RelayState.isSending : RelayState → Bool
  | .sending _ _ => true
  | .pending _ _ _ | .relayed | .suppressed | .noRelay => false

/-- How many entries of the Heard Table are SENDING. -/
def sendingCount (heard : List (Option HeardEntry)) : Nat :=
  heard.countP fun slot => slot.any fun e => e.relay.isSending

/-- The access state is one of a QUIET line. -/
def Access.onQuietLine : Access → Bool
  | .lineQuiet | .backoff _ => true
  | .lineBusy | .transmitting => false

/-- How the line stands in a part that runs. CONFIGURED: the slot is SENDING just while the receiver is OFF,
just while the access state is TRANSMITTING and just while one entry is SENDING; the access state is one of
a QUIET line just while the indication is QUIET; and the indication is BUSY through every reception.
Before that, and UNCONFIGURED: the receiver is OFF, the slot IDLE and the indication BUSY, and no entry is
SENDING. -/
abbrev State.lineSound (s : State) : Prop :=
  s.running = true →
  match s.loader.load with
  | .configured _ =>
    (s.line.slot = .idle ↔ s.line.receiver ≠ .off) ∧
    (s.line.slot = .idle ↔ s.relay.access ≠ .transmitting) ∧
    sendingCount s.relay.heard = (if s.line.slot = .idle then 0 else 1) ∧
    (s.relay.access.onQuietLine = true ↔ s.line.indication = .quiet) ∧
    (s.line.receiver.busy = true → s.line.indication = .busy)
  | .loading | .unconfigured =>
    s.line.receiver = .off ∧ s.line.slot = .idle ∧ s.line.indication = .busy ∧
      s.relay.access = .lineBusy ∧ sendingCount s.relay.heard = 0

/-! ## Overrides (R130, R132 to R135, R160) -/

/-- A run remaining of at most 65535 seconds. -/
abbrev Run.inRange : Run → Prop
  | .indefinite => True
  | .left n => n ≤ Config.most16

/-- The countdowns and the cycle lengths of an override lie within their ranges. -/
abbrev Imposed.inRange : Imposed → Prop
  | .none => True
  | .force _ (.delay n r) => n ≤ Config.most16 ∧ r.inRange
  | .force _ (.run r) => r.inRange
  | .cycle c =>
    (10 ≤ c.off ∧ c.off ≤ 3600) ∧ (10 ≤ c.on ∧ c.on ≤ 3600) ∧ c.portionLeft ≤ 3600 ∧
    c.run.inRange ∧
    ∀ g ∈ c.staged, (10 ≤ g.off ∧ g.off ≤ 3600) ∧ (10 ≤ g.on ∧ g.on ≤ 3600) ∧ g.duration ≤ 1080

/-- A return countdown of at most 30,540 seconds. -/
abbrev ChannelState.inRange : ChannelState → Prop
  | .returnWait n => n ≤ 30540
  | .normal | .fallbackHold | .releaseWait => True

/-- A channel's countdowns and counts lie within their ranges. -/
abbrev ChannelUnit.inRange (u : ChannelUnit) : Prop :=
  u.override.imposed.inRange ∧ u.state.inRange ∧ u.dwell ≤ 6000 ∧ u.input.stable ≤ 5

/-- Every channel's countdowns lie within their ranges, as do the loaded values that set them. -/
abbrev State.countdownsSound (s : State) : Prop :=
  s.loader.inRange ∧ ∀ c, (s.channels.get c).inRange

/-! ## Conditions and channels (R142, R143, R147 to R151, R157 to R161, R165, R172 to R174) -/

/-- SILENCE stands while its countdown has run out, and TIME_STEP while its hold runs (R150, R151). -/
abbrev Monitor.countdownsShow (m : Monitor) : Prop :=
  (m.conditions.silence = true ↔ m.silence = some 0) ∧ (m.conditions.timeStep = true ↔ 0 < m.stepHold)

/-- While the part runs CONFIGURED, TIME_INVALID and NO_PROGRAM stand for what they name; while it has no
configuration values, no condition stands and no countdown of the monitor runs. -/
abbrev State.conditionsSound (s : State) : Prop :=
  s.monitor.countdownsShow ∧
  match s.loader.load with
  | .configured _ => s.running = true →
      s.monitor.conditions.timeInvalid = !s.time.state.valid ∧
      s.monitor.conditions.noProgram = s.programs.active.isNone
  | .loading | .unconfigured =>
      s.monitor.conditions = .clear ∧ s.monitor.silence = none ∧ s.monitor.stepHold = 0

/-- The current request of an output: the deferred request, or the output (section 9.1). -/
abbrev ChannelUnit.currentRequest (u : ChannelUnit) : Level := u.deferred.getD u.output

/-- The level last handed is the requested level and the current request; a deferred request differs from
the output; and a used channel is in FALLBACK_HOLD just while an effective condition is active. -/
abbrev ChannelUnit.settled (cc : ChannelConfig) (active : Conditions) (u : ChannelUnit) : Prop :=
  u.handed = some (u.requested cc) ∧ u.currentRequest = u.requested cc ∧
  u.deferred ≠ some u.output ∧
  (if cc.used then (u.state = .fallbackHold ↔ u.effective cc active = true)
   else u.state = .normal ∧ u.output = .off)

/-- Every channel of a part that runs CONFIGURED is settled. -/
abbrev State.channelsSound (s : State) : Prop :=
  match s.loader.load with
  | .configured cfg => s.running = true →
      ∀ c, (s.channels.get c).settled (cfg.channel c) s.monitor.conditions
  | .loading | .unconfigured => True

end Sys2Proof.Machine
end

