-- ==== Sys2Proof/Certificates/Slice0/Obligations.lean ====
section
/-! DEFINITION. The statements about the Wepora 540, made from the numbered rules of its manual. Each
docstring names the rules; where a statement rests on a choice of the model, it names the log entry. -/

open Sys2Proof Sys2Proof.Machine

/-! ## The machine -/

/-- A step takes the command at the front of the queue, whole, and leaves the rest of the queue to wait
(95_what_each_step_holds.md; the queue is the model's, log entry 1). -/
def Obligations.StepTakesTheFrontCommand : Prop :=
  (∀ (c : Instr) (s : State), step (s.setPending (c :: s.pending)) = exec c s) ∧
  ∀ (c : Instr) (rest : List Instr) (s : State), s.pending = c :: rest →
    step s = exec c (s.setPending rest)

/-- On an empty queue a tick of the crystal passes (R62, R67; log entry 1). While the part runs, the
timebase advances by one, no countdown counts as set at the new tick yet (log entry 28), and that tick's
events are queued in some order; through a bridged interruption the retained clock's tick is queued;
otherwise nothing happens. Where a read attempt is under way and no answer of the store waits, the attempt
ends first, in the tick in which it began, with nothing acknowledged (log entry 19); whether VHOLD holds then
is a free value (log entries 5, 16). -/
def Obligations.EmptyQueuePassesATick : Prop :=
  ∀ s : State, s.pending = [] →
    let reading := s.loader.load = .loading ∧ s.loader.retryAt = none
    (s.running = true → reading → ∃ vhold : Bool, (vhold = true ↔ s.meetings.headD 0 % 2 = 1) ∧
      step s = .next ((s.setMeetings s.meetings.tail).setPending
        [.readAttemptEnd ⟨0, false, false, false, false, []⟩ 0 vhold])) ∧
    (s.running = true → ¬ reading → ∃ t, step s = .next t ∧ t.elapsed = s.elapsed + 1 ∧
      (∀ c, t.channels.get c = { s.channels.get c with dwellSet := false, returnSet := false }) ∧
      t.monitor = { s.monitor with stepHoldSet := false } ∧
      t.pending.Perm s.elapse.tickEvents ∧
      s.keepsAllBut [.pending, .meetings, .elapsed, .channels, .monitor] t) ∧
    (s.running = false → s.bridged = true → step s = .next (s.setPending [.retainedClockTick])) ∧
    (s.running = false → s.bridged = false → step s = .next s)

/-- The events a tick queues (R62, and the rule of each countdown): the clock's advance always; each
countdown that runs, at each tick or at each second's end as its rule says; each tick held in the state,
when it is reached; each once, and nothing that comes from outside. The queue and what the tick puts into
it are the model's (log entry 1); a command named after a countdown's end is queued at every second, or
tick, at which the countdown runs (log entry 2); a record of kind NONE at a second's end is not stepped
(log entry 27). -/
def Obligations.TickQueuesWhatIsDue : Prop :=
  ∀ s : State,
    let due (i : Instr) : Prop := i ∈ s.tickEvents
    let second : Prop := 0 < s.elapsed ∧ s.elapsed % 100 = 0
    let sent : Prop := ∃ e, s.status.emission = some e ∧ e.startedAt + 6 ≤ s.elapsed
    s.tickEvents.Nodup ∧
    (∀ cfg, s.loader.load = .configured cfg →
      (∀ i, fromOutside i = true ∨ i = .retainedClockTick ∨ i = .readRetry → ¬ due i) ∧
      due .clockAdvance ∧
      (due .holdCountdownExpiry ↔ second ∧ 0 < s.time.hold) ∧
      (due .lostCountdownExpiry ↔ second ∧ 0 < s.time.lost) ∧
      (due .assemblyTimeout ↔ second ∧ s.programs.staging ≠ none) ∧
      (due .silenceExpiry ↔ second ∧ ∃ n, 0 < n ∧ s.monitor.silence = some n) ∧
      (due .stepHoldExpiry ↔ second ∧ 0 < s.monitor.stepHold) ∧
      (due .statusSecondEnd ↔ second) ∧ (due .emissionEnd ↔ sent) ∧
      (due .mainsNoCrossing ↔
        s.monitor.mains.lastCrossing / 81920 + 10 * (s.monitor.mains.spans + 1) ≤ s.elapsed) ∧
      (due .mainsFreqRaise ↔ s.monitor.mains.cls = .outside ∧
        s.monitor.mains.changedAt + 500 ≤ s.elapsed ∧ s.monitor.conditions.mainsFreq = false) ∧
      (due .mainsFreqClear ↔ s.monitor.mains.cls = .inside ∧
        s.monitor.mains.changedAt + 3000 ≤ s.elapsed ∧ s.monitor.conditions.mainsFreq = true) ∧
      (∀ c, due (.dwellEnd c) ↔ 0 < (s.channels.get c).dwell) ∧
      (∀ c, due (.returnCountdownExpiry c) ↔ second ∧ ∃ n, (s.channels.get c).state = .returnWait n) ∧
      (∀ c, due (.delayEnd c) ↔
        second ∧ ∃ l n r, (s.channels.get c).override.imposed = .force l (.delay n r)) ∧
      (∀ c, due (.runEnd c) ↔ second ∧ ∃ l r, (s.channels.get c).override.imposed = .force l (.run r)) ∧
      (∀ c, due (.portionEnd c) ↔ second ∧ ∃ f, (s.channels.get c).override.imposed = .cycle f) ∧
      (due .backoffEnd ↔ ∃ ends, s.relay.access = .backoff ends ∧ ends ≤ s.elapsed) ∧
      (due .transmissionCompletion ↔
        ∃ copy start, s.line.slot = .sending copy start ∧ start + 20 ≤ s.elapsed) ∧
      (∀ i, due (.entryFallsDue i) ↔
        ∃ e copy received, entryAt s.relay.heard i = some e ∧ e.relay = .pending copy received s.elapsed) ∧
      ∀ i, due (.entryExpiry i) ↔
        ∃ e, entryAt s.relay.heard i = some e ∧ e.relay.settled = true ∧
          e.firstHeard + 100 * cfg.heardMemory ≤ s.elapsed) ∧
    (s.loader.load = .loading → ∀ i, due i ↔ i = .clockAdvance ∨
      i = .holdCountdownExpiry ∧ second ∧ 0 < s.time.hold ∨
      i = .lostCountdownExpiry ∧ second ∧ 0 < s.time.lost ∨
      i = .readRetry ∧ (∃ at_, s.loader.retryAt = some at_ ∧ at_ ≤ s.elapsed) ∨ i = .emissionEnd ∧ sent) ∧
    (s.loader.load = .unconfigured → ∀ i, due i ↔ i = .clockAdvance ∨ i = .emissionEnd ∧ sent ∨
      i = .statusSecondEnd ∧ second)

/-- No command faults or is refused, in any state: a command whose event the state does not admit changes
nothing and answers next (log entry 3). None touches the queue (the queue is the model's, log entry 1; a
step of the part holds whole events, 95_what_each_step_holds.md). -/
def Obligations.EveryCommandAnswersNext : Prop :=
  ∀ (i : Instr) (s : State), ∃ t, exec i s = .next t ∧ t.pending = s.pending

/-! ## Restarts and the supply (chapter 10) -/

/-- R65. A cold restart, which comes by the release of NRESET or by the rise of VDD with no retention mark
(R193), sets the Timekeeper so, and the clock then counts from day 0. -/
def Obligations.ColdRestartClearsTheClock : Prop :=
  ∀ s : State, s.power.nresetLow = true ∨ s.power.vddUp = false ∧ s.power.mark = false →
    ∃ t, exec .coldRestart s = .next t ∧
    t.time.clock = ⟨0, 0⟩ ∧ t.time.today = .workday ∧ t.time.tomorrow = none ∧ t.time.slew = 0 ∧
    t.time.state = .unset ∧ t.time.candidate = none ∧ t.time.hold = 0 ∧ t.time.lost = 0 ∧
    t.counters.timeAccepted = 0 ∧ t.counters.timeRejected = 0 ∧ t.counters.steps = 0 ∧
    ∃ u, exec .clockAdvance t = .next u ∧ u.time.clock = ⟨0, 1⟩ ∧ u.time.state = .unset

/-- R1, R22, R40, R89, R102, R122, R147, R163, R170, R184, R193, R197 and R201: what a cold restart leaves
in every block, whatever went before (levels are held relative to the carrier threshold, which is 0: log
entry 8; the first read attempt counts as begun, and no clean boundary, carrier or falling due is held: log
entry 17). Where no cause of a cold restart is there, nothing happens (log entry 7). -/
def Obligations.ColdRestartClearsEveryBlock : Prop :=
  ∀ s : State,
    (s.power.nresetLow = true ∨ s.power.vddUp = false ∧ s.power.mark = false →
      exec .coldRestart s = .next s.coldRestarted) ∧
    (s.power.nresetLow = false → s.power.vddUp = true ∨ s.power.mark = true →
      exec .coldRestart s = .next s) ∧
    let t := s.coldRestarted
    t.power = ⟨true, false, false, 0⟩ ∧ t.running = true ∧
    t.elapsed = 0 ∧ t.line.receiver = .off ∧ t.line.slot = .idle ∧ t.line.indication = .busy ∧
    t.line.noise = 0 ∧ t.line.cleanFrom = 0 ∧ t.line.carrierAt = none ∧
    t.origins.entries = [] ∧ t.origins.dropped = [] ∧
    t.relay.heard = List.replicate 64 none ∧ t.relay.access = .lineBusy ∧ t.relay.dueTo = 0 ∧
    t.programs = ⟨none, none, none⟩ ∧
    t.resolver.windows = List.replicate 24 none ∧ t.resolver.band = none ∧ t.resolver.index = 1 ∧
    t.register = 1 ∧ t.registerLines = 0 ∧
    (∀ c, (t.channels.get c).override = ⟨.none, none⟩ ∧ (t.channels.get c).state = .fallbackHold ∧
      (t.channels.get c).band = none ∧ (t.channels.get c).handed = none ∧
      (t.channels.get c).output = .off ∧ (t.channels.get c).deferred = none ∧
      (t.channels.get c).dwell = 0 ∧ (t.channels.get c).input.qualification = .unknown ∧
      (t.channels.get c).input.stable = 0 ∧ (t.channels.get c).forced = false ∧
      (t.channels.get c).setter = none ∧ t.relaySinks c = false) ∧
    t.monitor.conditions = .clear ∧ t.monitor.silence = none ∧ t.monitor.stepHold = 0 ∧
    t.monitor.mains.cls = .inside ∧ t.monitor.mains.changedAt = 0 ∧
    t.loader.load = .loading ∧ t.loader.attempts = 1 ∧ t.loader.image = none ∧
    t.status.emission = none ∧ t.status.changePending = false ∧ t.status.periodic = 60 ∧
    (∀ n ∈ t.counters.list, n = 0) ∧ t.pending = s.pending

/-- R193, R194 and the first half of R68. When VDD rises with the retention mark present and NRESET high, a
warm restart keeps the items of R194's first table, demotes SYNCED to HOLDOVER, and gives every other item
the state a cold restart gives it, the Status Port too where SYNCED was demoted (log entry 14); otherwise
there is no warm restart (log entry 7). -/
def Obligations.WarmRestartKeepsWhatIsRetained : Prop :=
  ∀ s : State,
    (s.power.vddUp = false → s.power.mark = true → s.power.nresetLow = false →
      ∃ t, exec .warmRestart s = .next t ∧
      t.time.clock = s.time.clock ∧ t.time.today = s.time.today ∧ t.time.tomorrow = s.time.tomorrow ∧
      t.time.hold = s.time.hold ∧ t.time.lost = s.time.lost ∧
      t.time.state = (if s.time.state = .synced then .holdover else s.time.state) ∧
      t.time.slew = 0 ∧ t.time.candidate = none ∧
      t.origins = s.origins ∧ t.programs.next = s.programs.next ∧ t.programs.active = s.programs.active ∧
      t.programs.staging = none ∧ t.resolver.windows = s.resolver.windows ∧
      t.resolver.band = none ∧ t.resolver.index = 1 ∧
      t.power = ⟨true, false, true, 0⟩ ∧ t.running = true ∧
      s.coldRestarted.keepsAllBut [.power, .time, .origins, .programs, .resolver] t) ∧
    (s.power.vddUp = true ∨ s.power.mark = false ∨ s.power.nresetLow = true →
      exec .warmRestart s = .next s)

/-- R193: a supply failure stops the part and cuts off what is under way; NRESET held low does so too, and
clears the retention domain with its mark; a loss of VHOLD clears the mark, and the retained state only
while VDD is below 2.8 V. The crystal's ticks are counted from the supply failure, and what the spec does
not say of the rest is left as it stands until the restart (log entry 15). -/
def Obligations.SupplyEventsStopThePart : Prop :=
  (∀ s : State, s.power.vddUp = true → s.power.nresetLow = false →
    ∃ t, exec .supplyFailure s = .next t ∧ t.running = false ∧
      t.power = { s.power with vddUp := false, crystalTicks := 0 } ∧
      t.line = { s.line with receiver := .off, slot := .idle } ∧
      t.status = { s.status with emission := none } ∧ t.stxDriven = false ∧
      (∀ c, t.relaySinks c = false) ∧ s.keepsAllBut [.power, .line, .status] t) ∧
  (∀ s : State, s.power.vddUp = true → s.power.nresetLow = true →
    ∃ t, exec .supplyFailure s = .next t ∧ t.power = { s.power with vddUp := false } ∧
      s.keepsAllBut [.power] t) ∧
  (∀ s : State, s.power.vddUp = false → exec .supplyFailure s = .next s) ∧
  (∀ s : State, ∃ t, exec .nresetAsserted s = .next t ∧ t.running = false ∧
      t.power = { s.power with nresetLow := true, mark := false } ∧
      t.time = .cold ∧ t.origins = .cold ∧ t.programs.next = none ∧ t.programs.active = none ∧
      t.programs.staging = s.programs.staging ∧ t.resolver.windows = List.replicate 24 none ∧
      t.resolver.index = s.resolver.index ∧ t.line = { s.line with receiver := .off, slot := .idle } ∧
      t.status = { s.status with emission := none } ∧ (∀ c, t.relaySinks c = false) ∧
      s.keepsAllBut [.power, .line, .time, .origins, .programs, .resolver, .status] t) ∧
  (∀ s : State, s.power.vddUp = true →
    exec .vholdLoss s = .next (s.setPower { s.power with mark := false })) ∧
  ∀ s : State, s.power.vddUp = false →
    ∃ t, exec .vholdLoss s = .next t ∧ t.power = { s.power with mark := false } ∧ t.time = .cold ∧
      t.origins = .cold ∧ t.programs.next = none ∧ t.programs.active = none ∧
      t.resolver.windows = List.replicate 24 none ∧
      s.keepsAllBut [.power, .time, .origins, .programs, .resolver] t

/-- R67. Through a bridged supply interruption each tick of the crystal advances the retained clock by one
tick without slew, with the rollover of R64, and every hundredth, counted from the supply failure (log entry
15), runs the two countdowns down by R66; at any other time there is no such tick. -/
def Obligations.RetainedClockRuns : Prop :=
  (∀ s : State, s.bridged = true → s.time.clock.tick < 8640000 →
    ∃ t, exec .retainedClockTick s = .next t ∧
      t.power = { s.power with crystalTicks := s.power.crystalTicks + 1 } ∧
      (if s.time.clock.tick + 1 < 8640000 then
        t.time.clock = ⟨s.time.clock.day, s.time.clock.tick + 1⟩ ∧ t.time.today = s.time.today ∧
          t.time.tomorrow = s.time.tomorrow
      else t.time.clock = ⟨s.time.clock.day + 1, 0⟩ ∧ t.time.today = s.time.tomorrow.getD .workday ∧
          t.time.tomorrow = none) ∧
      (if (s.power.crystalTicks + 1) % 100 = 0 then
        t.time.hold = s.time.hold - 1 ∧ t.time.lost = s.time.lost - 1 ∧
        t.time.state = (if s.time.lost = 1 ∧ s.time.state.valid = true then .lost
          else if s.time.hold = 1 ∧ s.time.state = .synced then .holdover else s.time.state)
      else t.time.hold = s.time.hold ∧ t.time.lost = s.time.lost ∧ t.time.state = s.time.state) ∧
      t.time.slew = s.time.slew ∧ t.time.candidate = s.time.candidate ∧
      s.keepsAllBut [.power, .time] t) ∧
  ∀ s : State, s.bridged = false → exec .retainedClockTick s = .next s

/-! ## Loading the configuration (chapter 10) -/

/-- R186 with the outcomes of R185: while fewer than three attempts were made, an attempt that failed is
followed by a further one two ticks later and no sooner, which counts as begun; the third failure, and a
good image of another version at any attempt, leave the part UNCONFIGURED, with every channel held in
FALLBACK_HOLD requesting OFF (R165, R192; the retention mark as the command's operand says: log entry 16).
The bytes of an attempt that read them replace the image buffer, and what the attempt did on the bus is
ReadAttemptSendsOnlyTheAddress's. And loading ends no later than 8 elapsed ticks after the restart (R184):
every step keeps it so far along (each attempt ends in the tick in which it began: log entry 19). -/
def Obligations.FailedLoadingEndsUnconfigured : Prop :=
  (∀ (s : State) (a : StoreAnswer) (noise : Rat) (vhold : Bool),
    s.running = true → s.loader.load = .loading → s.loader.retryAt = none →
    let failed := attemptEnd a = .noAnswer ∨ attemptEnd a = .busFault ∨
      ∃ image, attemptEnd a = .data image ∧ image.length = 66 ∧ imagePasses image = false
    let otherVersion := ∃ image, attemptEnd a = .data image ∧ image.length = 66 ∧
      imagePasses image = true ∧ versionOf image ≠ 1
    let buffer := match attemptEnd a with
      | .data image => some image
      | .noAnswer | .busFault => s.loader.image
    (failed → s.loader.attempts < 3 → ∃ t, exec (.readAttemptEnd a noise vhold) s = .next t ∧
      t.loader = ⟨.loading, s.loader.attempts, buffer, some (s.elapsed + 2), attemptActions a⟩ ∧
      s.keepsAllBut [.loader] t) ∧
    (failed ∧ 3 ≤ s.loader.attempts ∨ otherVersion →
      ∃ t, exec (.readAttemptEnd a noise vhold) s = .next t ∧
      t.loader = ⟨.unconfigured, s.loader.attempts, buffer, none, attemptActions a⟩ ∧
      t.power = { s.power with mark := vhold } ∧ t.status = { s.status with changePending := true } ∧
      (∀ c, t.channels.get c =
        { s.channels.get c with state := .fallbackHold, handed := some .off }) ∧
      s.keepsAllBut [.power, .channels, .loader, .status] t)) ∧
  (∀ (s : State) (at_ : Nat), s.running = true → s.loader.load = .loading → s.loader.retryAt = some at_ →
    (at_ ≤ s.elapsed → ∃ t, exec .readRetry s = .next t ∧
      t.loader = { s.loader with attempts := s.loader.attempts + 1, retryAt := none } ∧
      s.keepsAllBut [.loader] t) ∧
    (s.elapsed < at_ → exec .readRetry s = .next s)) ∧
  (∀ s t : State, s.loadingSound → step s = .next t → t.loadingSound) ∧
  ∀ s : State, s.loadingSound → s.running = true → s.loader.load = .loading → s.elapsed ≤ 8

/-- R191, with R1, R22, R59, R68, R98, R118, R147, R160, R163 to R165, R171 and R172: what each block does
when a good image is found, in whatever order. Every channel is set straight to its safe level, or to OFF
when unused, with its dwell set, which takes no decrease at this tick (log entry 28). An unused channel is
NORMAL; a used one is in FALLBACK_HOLD while an effective condition is active, and otherwise waits out its
return countdown whatever its no-auto-return flag, or is NORMAL when that is 0. By R164 a channel that
NO_PROGRAM alone holds, when a program is activated in the same instant, is placed in RETURN_WAIT if the
activation is taken first, and passes to RELEASE_WAIT by its flag if the placement is (the order is the
meeting's number: log entry 5). The retention mark is as the command's operand says: log entry 16. -/
def Obligations.FoundConfiguredActsInEveryBlock : Prop :=
  ∀ (s : State) (a : StoreAnswer) (noise : Rat) (vhold : Bool) (image : List Byte),
    s.running = true → s.loader.load = .loading → s.loader.retryAt = none →
    attemptEnd a = .data image → image.length = 66 → imagePasses image = true → versionOf image = 1 →
    s.resolver.index = s.register →
    let cfg := configurationOf image
    ∃ t, exec (.readAttemptEnd a noise vhold) s = .next t ∧
      t.loader = ⟨.configured cfg, s.loader.attempts, some image, none, attemptActions a⟩ ∧
      t.line = { s.line with receiver := .listening } ∧
      t.origins = s.origins.rebuild cfg.origins ∧
      t.relay = { s.relay with generator := ⟨cfg.stagger, noise, 0⟩ } ∧
      t.time = { s.time with hold := min s.time.hold (60 * cfg.holdLimit),
                             lost := min s.time.lost (3600 * cfg.lostLimit) } ∧
      t.programs.staging = s.programs.staging ∧
      (match s.programs.next with
        | some p => if p.activation = ⟨0, 0⟩ ∨ s.time.state.valid = true ∧
              s.time.clock.hasReached p.activation = true then
            t.programs.active = some p ∧ t.programs.next = none
          else t.programs.active = s.programs.active ∧ t.programs.next = some p
        | none => t.programs.active = s.programs.active ∧ t.programs.next = none) ∧
      t.monitor = { s.monitor with
        silence := if cfg.silenceLimit = 0 then none else some (60 * cfg.silenceLimit)
        conditions := { s.monitor.conditions with
          timeInvalid := !t.time.state.valid, noProgram := t.programs.active.isNone } } ∧
      t.resolver.windows = (if t.time.state.valid then freeExpired t.time.clock s.resolver.windows
        else s.resolver.windows) ∧
      t.resolver.band = bandNow t.programs.active t.time t.resolver.windows ∧
      t.register = registerIndex cfg t.programs.active t.time t.resolver.windows ∧
      (∀ c,
        let cc := cfg.channel c
        let u := s.channels.get c
        let v := t.channels.get c
        let seconds := cc.returnBase * 60 + cc.returnSpread * 60 * cfg.stagger / 256
        let held := u.forced = true ∨ ∃ k, t.monitor.conditions.get k = true ∧ cc.mask.get k = true
        let waits := v.state = if seconds = 0 then .normal else .returnWait seconds
        let cleared := cc.mask.noProgram = true ∧ s.programs.active = none ∧ t.programs.active ≠ none
        v.override = u.override ∧ v.input = u.input ∧ v.forced = u.forced ∧ v.setter = u.setter ∧
        v.output = (if cc.used then cc.safe else .off) ∧
        v.dwell = 100 * cc.minDwell ∧ v.dwellSet = true ∧
        v.handed = some (v.requested cc) ∧
        v.deferred = (if v.requested cc = v.output then none else some (v.requested cc)) ∧
        (cc.used = false → v.state = .normal) ∧
        (cc.used = true → held → v.state = .fallbackHold) ∧
        (cc.used = true → ¬ held →
          (waits ∨ cc.noAutoReturn = true ∧ cleared ∧ v.state = .releaseWait) ∧
          (s.meetings.headD 0 % 3 = 0 → waits) ∧
          (s.meetings.headD 0 % 3 = 1 → cc.noAutoReturn = true → cleared → v.state = .releaseWait) ∧
          ∀ n, v.state = .returnWait n → v.returnSet = true)) ∧
      t.status = { s.status with changePending := true } ∧ t.power = { s.power with mark := vhold } ∧
      s.keepsAllBut [.meetings, .power, .line, .origins, .relay, .time, .programs, .resolver, .channels,
        .register, .monitor, .loader, .status] t

/-- R187 to R190 and section 12.6: how each configuration value is read from the image. A field that carries
every bit set takes its default where it has one, and every other value is brought into its range; the lost
limit is then reconciled; a list takes the places counted from its first, a group of 0 as group 1; and each
channel record's bits are read. All values lie within their ranges. -/
def Obligations.ConfigurationValuesAreClamped : Prop :=
  ∀ image : List Byte, image.length = 66 →
    let cfg := configurationOf image
    let b (i : Nat) : Nat := (byteAt image i).toNat
    let n (i : Nat) : Nat := 256 * b i + b (i + 1)
    let within (low high x : Nat) : Nat := if x < low then low else if high < x then high else x
    let one (i low high default_ : Nat) : Nat := if b i = 255 then default_ else within low high (b i)
    let two (i low high default_ : Nat) : Nat := if n i = 65535 then default_ else within low high (n i)
    (imagePasses image = true ↔ (crc16 (image.take 64)).toNat = n 64) ∧ versionOf image = b 0 ∧
    cfg.inRange ∧ (cfg.relayEnable = true ↔ b 1 % 2 = 1) ∧
    cfg.relaySpread = one 2 8 63 24 ∧ cfg.suppression = one 3 1 7 2 ∧
    cfg.heardMemory = two 4 60 3600 600 ∧ cfg.ageLimit = two 6 1000 65000 60000 ∧
    cfg.beaconMaxAge = two 8 100 30000 3000 ∧ cfg.stepThreshold = two 10 10 6000 200 ∧
    cfg.holdLimit = two 12 10 1440 120 ∧
    cfg.lostLimit = (if 60 * one 14 1 168 36 < cfg.holdLimit then (cfg.holdLimit + 59) / 60
      else one 14 1 168 36) ∧
    cfg.silenceLimit = two 15 0 1440 180 ∧ cfg.stagger = b 17 ∧
    cfg.fallbackRegister = within 1 8 (b 18) ∧ cfg.boostLength = within 1 240 (b 19) ∧
    cfg.origins = (List.range (within 1 4 (b 20))).map (fun k => byteAt image (21 + k)) ∧
    cfg.groups = (List.range (within 1 8 (b 25))).map
      (fun k => if b (26 + k) = 0 then 1 else byteAt image (26 + k)) ∧
    channelList.map channelPlace = [0, 1, 2, 3, 4, 5] ∧
    ∀ c,
      let cc := cfg.channel c
      let i := 34 + 5 * channelPlace c
      (cc.used = true ↔ b i % 2 = 1) ∧ (cc.safe = .on ↔ b i / 2 % 2 = 1) ∧
      (cc.noAutoReturn = true ↔ b i / 4 % 2 = 1) ∧
      (cc.input = .hold ↔ b i / 16 % 4 = 1) ∧ (cc.input = .boost ↔ b i / 16 % 4 = 2) ∧
      (∀ k j, (k, j) ∈ [(Condition.timeInvalid, 0), (.noProgram, 1), (.silence, 2), (.mainsFreq, 3),
        (.timeStep, 4)] → (cc.mask.get k = true ↔ b (i + 1) / 2 ^ j % 2 = 1)) ∧
      cc.returnBase = b (i + 2) ∧ cc.returnSpread = b (i + 3) ∧ cc.minDwell = within 1 60 (b (i + 4))

/-- R188. The lost limit is raised to the smallest whole number of hours not below the hold limit where
the hold limit exceeds it, and is otherwise as given. -/
def Obligations.LostLimitIsReconciled : Prop :=
  (∀ hold lost : Nat, 60 * lost < hold →
    hold ≤ 60 * reconciledLost hold lost ∧ ∀ n, hold ≤ 60 * n → reconciledLost hold lost ≤ n) ∧
  (∀ hold lost : Nat, hold ≤ 60 * lost → reconciledLost hold lost = lost) ∧
  reconciledLost 130 2 = 3 ∧ (∀ lost, lost < 24 → reconciledLost 1440 lost = 24) ∧
  ∀ image : List Byte,
    (configurationOf image).holdLimit = field16 image 12 10 1440 120 ∧
    (configurationOf image).lostLimit =
      reconciledLost (field16 image 12 10 1440 120) (field8 image 14 1 168 36)

/-- R21 and R22: the rebuilt table has one entry for each distinct id in the order of first appearance;
windows follow their origins, from the table or from the dropped windows, and those of ids no longer
listed are kept apart. -/
def Obligations.OriginTableFollowsItsOrigins : Prop :=
  ∀ (o : OriginTable) (ids : List Byte),
    let t := o.rebuild ids
    t.entries.map (·.id) = ids.foldl (fun kept id => if id ∈ kept then kept else kept ++ [id]) [] ∧
    (t.entries.map (·.id)).Nodup ∧ (∀ id, id ∈ t.entries.map (·.id) ↔ id ∈ ids) ∧
    t.primary = ids.head? ∧
    (∀ e ∈ t.entries, (∀ f, o.find e.id = some f → e.window = f.window) ∧
      (o.find e.id = none → ∀ f, (o.dropped.find? fun x => x.id = e.id) = some f → e.window = f.window) ∧
      (o.find e.id = none → (o.dropped.find? fun x => x.id = e.id) = none → e.window = none)) ∧
    ∀ e, e ∈ t.dropped ↔ (e ∈ o.dropped ∨ e ∈ o.entries) ∧ e.id ∉ ids

/-- R185: a read attempt sends no byte but the two bytes of the word address, both 0; it frees a held bus
with at most nine clock pulses; and an attempt that ends as DATA reads the bytes in sequence, acknowledges
each but the last, and closes with a stop condition. -/
def Obligations.ReadAttemptSendsOnlyTheAddress : Prop :=
  ∀ a : StoreAnswer,
    (∀ b, BusAction.send b ∈ attemptActions a → b = 0) ∧
    (attemptActions a).countP (fun x => x matches .send _) ≤ 2 ∧
    (attemptActions a).countP (fun x => x matches .pulse) ≤ 9 ∧
    (attemptEnd a = .busFault → attemptActions a = List.replicate 9 .pulse) ∧
    ∀ bytes last, attemptEnd a = .data (bytes ++ [last]) →
      ∃ before, attemptActions a = before ++ [.start, .address storeAddress false, .send 0, .send 0,
        .repeatedStart, .address storeAddress true] ++ bytes.map (.receive · true) ++
          [.receive last false, .stop]

/-! ## The line (chapter 1) -/

/-- R2, R5, R9, R12 and R51: a carrier or a start mark makes the indication BUSY, and the change drops a
running backoff; a LISTENING receiver begins a reception at a start mark, and no other receiver takes
notice of it. The tick at which a carrier appears is kept, since that tick is not clean (log entry 9), and
while LOADING and UNCONFIGURED nothing else happens (R1). -/
def Obligations.CarrierAndStartMarkTurnTheLineBusy : Prop :=
  ∀ s : State, s.running = true →
    let configured := ∃ cfg, s.loader.load = .configured cfg
    let busied (a : Access) : Access := if a = .transmitting then .transmitting else .lineBusy
    let reported (t : State) : Prop :=
      t.relay = (if s.line.indication = .quiet then { s.relay with access := busied s.relay.access }
        else s.relay) ∧
      s.keepsAllBut [.line, .relay] t
    let heard (indication : Indication) (t : State) : Prop :=
      t.line = { s.line with
        indication := indication, carrierAt := some s.elapsed, cleanFrom := t.line.cleanFrom } ∧
      (∀ a, s.line.carrierAt = some a → a < s.elapsed →
        t.line.cleanFrom = max s.line.cleanFrom (a + 1)) ∧
      ((∀ a, s.line.carrierAt = some a → s.elapsed ≤ a) → t.line.cleanFrom = s.line.cleanFrom)
    (configured → ∃ t, exec .carrierAppears s = .next t ∧ reported t ∧ heard .busy t) ∧
    (¬ configured → ∃ t, exec .carrierAppears s = .next t ∧ s.keepsAllBut [.line] t ∧
      heard s.line.indication t) ∧
    (configured → s.line.receiver = .listening → ∃ t, exec .startMark s = .next t ∧ reported t ∧
      t.line = { s.line with receiver := .receiving [] 0 s.elapsed, indication := .busy }) ∧
    (¬ configured ∨ s.line.receiver ≠ .listening → exec .startMark s = .next s)

/-- R8, R9 and R50: at the end of a clean tick, one with no carrier, no reception and no transmission of
this station in it, the noise estimate moves one eighth of the way towards the level of that tick and never
above the carrier threshold. What starts at the present boundary is no part of the tick just ended; while
it goes on the indication stays BUSY, and otherwise it turns QUIET, and the Relay Engine draws a backoff of
1 to 16 ticks where an entry is due. UNCONFIGURED the estimate moves and the indication stays BUSY (R1); while
LOADING the estimate holds its restart state (R184). No other tick boundary does so (levels in dB above the
threshold: log entry 8; the ends and starts by which a clean tick is told, and that the indication stays BUSY:
log entry 9; which entries are due: log entry 26). -/
def Obligations.CleanTickTurnsTheLineQuiet : Prop :=
  ∀ (s : State) (level : Rat), s.running = true →
    let clean := s.line.cleanFrom < s.elapsed ∧ s.line.carrierAt ≠ some (s.elapsed - 1) ∧
      (∀ bytes sum start, s.line.receiver = .receiving bytes sum start → s.elapsed ≤ start) ∧
      (∀ copy start, s.line.slot = .sending copy start → s.elapsed ≤ start) ∧ level < 0
    let taken := s.line.carrierAt = some s.elapsed ∨
      (∃ bytes sum start, s.line.receiver = .receiving bytes sum start) ∨ s.line.slot ≠ .idle
    let moved : Line := { s.line with
      noise := s.line.noise + (level - s.line.noise) / 8, cleanFrom := s.elapsed }
    (s.line.noise ≤ 0 → level < 0 → moved.noise ≤ 0) ∧
    (s.loader.load = .loading ∨ ¬ clean → exec (.cleanTick level) s = .next s) ∧
    (s.loader.load = .unconfigured → clean → exec (.cleanTick level) s = .next (s.setLine moved)) ∧
    ∀ cfg, s.loader.load = .configured cfg → clean →
      (taken → exec (.cleanTick level) s = .next (s.setLine moved)) ∧
      (¬ taken → ∃ t, exec (.cleanTick level) s = .next t ∧ t.line = { moved with indication := .quiet } ∧
        (s.line.indication = .quiet ∨ s.relay.access ≠ .lineBusy → t.relay = s.relay) ∧
        (s.line.indication = .busy → s.relay.access = .lineBusy → s.someEntryDue →
          ∃ b, 1 ≤ b ∧ b ≤ 16 ∧ t.relay = { s.relay with
            access := .backoff (s.elapsed + b), generator := t.relay.generator }) ∧
        (s.line.indication = .busy → s.relay.access = .lineBusy → ¬ s.someEntryDue →
          t.relay = { s.relay with access := .lineQuiet }) ∧
        s.keepsAllBut [.line, .relay] t)

/-- R6: the check of the characters "123456789" is 0x29B1; and the same computation over all 32 bytes of a
copy leaves 0 exactly when its check result is PASS. -/
def Obligations.FrameCheckIsTheCrc : Prop :=
  crc16 [0x31, 0x32, 0x33, 0x34, 0x35, 0x36, 0x37, 0x38, 0x39] = 0x29B1#16 ∧
  ∀ copy : List Byte, copy.length = 32 → (crc16 copy = 0 ↔ checkPasses copy = true)

/-- R7. The link margin is the number of whole 3 dB steps by which the level exceeds the noise estimate
plus 6 dB, clamped to 0 to 15. -/
def Obligations.LinkMarginCountsThreeDecibelSteps : Prop :=
  ∀ noise level : Rat,
    linkMargin noise level ≤ 15 ∧
    (level ≤ noise + 6 → linkMargin noise level = 0) ∧
    (noise + 6 + 45 ≤ level → linkMargin noise level = 15) ∧
    (noise + 6 ≤ level → level < noise + 6 + 45 →
      3 * (linkMargin noise level : Rat) ≤ level - (noise + 6) ∧
      level - (noise + 6) < 3 * ((linkMargin noise level : Rat) + 1)) ∧
    linkMargin noise (noise + 6 + 20) = 6

/-! ## The Acceptance Filter (chapter 2) -/

/-- R4, R25, R26, R28 and the refusals of R29: a truncated frame, and a copy that fails its check, comes
from a foreign origin, is aged, or is a duplicate or stale, changes one counter and, the receiver's return
to LISTENING apart, nothing else. -/
def Obligations.DiscardedCopiesOnlyCount : Prop :=
  ∀ (s : State) (cfg : Configuration), s.runsWith cfg →
    let counted (i : Instr) (k : Counter) : Prop := ∃ t, exec i s = .next t ∧
      t.line = s.line.listeningAgain s.elapsed ∧ t.counters = s.counters.add k 1 ∧
      s.keepsAllBut [.line, .counters] t
    (∀ bytes sum start, s.line.receiver = .receiving bytes sum start → start + 2 ≤ s.elapsed →
      counted .truncatedFrame .rxCheckFail) ∧
    ∀ bytes levels, s.endsReception bytes →
      (checkPasses bytes = false → counted (.receptionEnd bytes levels) .rxCheckFail) ∧
      (checkPasses bytes = true → (∀ e ∈ s.origins.entries, e.id ≠ originOf bytes) →
        counted (.receptionEnd bytes levels) .rxForeign) ∧
      ∀ e, checkPasses bytes = true → s.origins.find (originOf bytes) = some e →
        lookup s.relay.heard (originOf bytes) (serialOf bytes) = none →
        (cfg.ageLimit ≤ ageOf bytes → counted (.receptionEnd bytes levels) .rxAged) ∧
        (ageOf bytes < cfg.ageLimit → classify e.window (serialOf bytes) ≠ .new →
          counted (.receptionEnd bytes levels) .rxStale)

/-- R27 and R45 to R48, with the removal of R58: an echo is counted, raises its entry's echo count to at
most 15, and replaces the stored copy of a PENDING entry when it has more budget; at the suppression
threshold a PENDING entry is SUPPRESSED. Nothing else changes. -/
def Obligations.EchoesCountAndSuppress : Prop :=
  ∀ (s : State) (cfg : Configuration) (bytes : List Byte) (levels : Rat) (i : Nat) (e : HeardEntry),
    s.runsWith cfg → s.endsReception bytes → checkPasses bytes = true →
    (s.origins.find (originOf bytes)).isSome = true →
    lookup s.relay.heard (originOf bytes) (serialOf bytes) = some i → entryAt s.relay.heard i = some e →
    let n := min 15 (e.echoes + 1)
    ∃ t, exec (.receptionEnd bytes levels) s = .next t ∧
      t.line = s.line.listeningAgain s.elapsed ∧ t.relay = { s.relay with heard := t.relay.heard } ∧
      t.relay.heard.length = s.relay.heard.length ∧
      (∀ j, j ≠ i → entryAt t.relay.heard j = entryAt s.relay.heard j) ∧
      s.keepsAllBut [.line, .relay, .counters] t ∧
      match e.relay with
      | .pending stored received due =>
        if n < cfg.suppression then
          t.counters = s.counters.add .echoes 1 ∧
          entryAt t.relay.heard i = some { e with
            echoes := n
            relay := if budgetOf stored < budgetOf bytes then .pending (bytes.take 30) s.elapsed due
              else .pending stored received due }
        else
          t.counters = (s.counters.add .echoes 1).add .suppressed 1 ∧
          entryAt t.relay.heard i = (if e.firstHeard + 100 * cfg.heardMemory ≤ s.elapsed then none
            else some { e with echoes := n, relay := .suppressed })
      | .sending _ _ | .relayed | .suppressed | .noRelay =>
        t.counters = s.counters.add .echoes 1 ∧ entryAt t.relay.heard i = some { e with echoes := n }

/-- R30, R42, R44 and R150, with R31 and R35: an acceptance updates the origin's window, counts rx_ok,
restarts the silence countdown and clears SILENCE, and opens a Heard Table entry where R43 finds a place;
a telegram that is routed to no block changes nothing further, but what a cleared SILENCE does at the
channels (ConditionsActOnAChannel). The relay draw is a free value from 0 to the relay spread (log entry
10). -/
def Obligations.AcceptanceRecordsTheTelegram : Prop :=
  ∀ (s : State) (cfg : Configuration) (bytes : List Byte) (levels : Rat),
    s.runsWith cfg → s.endsReception bytes → s.accepts cfg bytes →
    let start := if cfg.silenceLimit = 0 then none else some (60 * cfg.silenceLimit)
    ∃ t, exec (.receptionEnd bytes levels) s = .next t ∧
      t.line = s.line.listeningAgain s.elapsed ∧
      t.origins = s.origins.accept (originOf bytes) (serialOf bytes) ∧
      t.counters.rxOk = saturate s.counters.rxOk 1 ∧
      t.monitor.silence = start ∧
      t.monitor.conditions.silence = false ∧
      t.relay = { s.relay with heard := t.relay.heard, generator := t.relay.generator } ∧
      (match placeFor s.relay.heard with
        | none => t.relay.heard = s.relay.heard ∧
            t.counters.relayDropped = saturate s.counters.relayDropped 1
        | some i => t.counters.relayDropped = s.counters.relayDropped ∧
            ∃ r ≤ cfg.relaySpread, t.relay.heard = s.relay.heard.set i (some
              ⟨originOf bytes, serialOf bytes,
                if cfg.relayEnable = true ∧ 1 ≤ budgetOf bytes then
                  .pending (bytes.take 30) s.elapsed
                    (s.elapsed + 4 * linkMargin s.line.noise (levels / 32) + r)
                else .noRelay, 0, s.elapsed⟩)) ∧
      s.keepsAllBut [.meetings, .line, .origins, .relay, .time, .programs, .resolver, .channels,
        .register, .monitor, .status, .counters] t ∧
      (kindOf bytes ≠ 1 → (kindOf bytes = 2 ∨ kindOf bytes = 3 → addresses cfg (targetOf bytes) = false) →
        s.keepsAllBut [.meetings, .line, .origins, .relay, .channels, .monitor, .status, .counters] t ∧
        t.counters = (match placeFor s.relay.heard with
          | none => (s.counters.add .rxOk 1).add .relayDropped 1
          | some _ => s.counters.add .rxOk 1) ∧
        t.monitor = { s.monitor with
          silence := start, conditions := { s.monitor.conditions with silence := false } } ∧
        (s.monitor.conditions.silence = false → t.channels = s.channels ∧ t.status = s.status) ∧
        (s.monitor.conditions.silence = true → t.status = { s.status with changePending := true } ∧
          ∀ c, t.channels.get c = ((Work.idle (s.channels.get c)).stationCondition (cfg.channel c)
            cfg.stagger t.monitor.conditions .silence).unit))

/-- R29: how a serial is classified against a window, and what its acceptance makes of the window; a
serial just accepted is no longer new. -/
def Obligations.SerialWindowRule : Prop :=
  (∀ serial : Word, classify none serial = .new ∧ acceptSerial none serial = ⟨serial, []⟩) ∧
  ∀ (w : SerialWindow) (serial : Word), w.sound →
    let d := (serial - w.highest).toNat
    (d = 0 → classify (some w) serial = .duplicate) ∧
    (1 ≤ d → d ≤ 32767 → classify (some w) serial = .new ∧
      (acceptSerial (some w) serial).highest = serial ∧
      ∀ k, k ∈ (acceptSerial (some w) serial).seen ↔ k ≤ 32 ∧ (k = d ∨ ∃ j ∈ w.seen, k = j + d)) ∧
    (65536 - 32 ≤ d → 65536 - d ∈ w.seen → classify (some w) serial = .duplicate) ∧
    (65536 - 32 ≤ d → 65536 - d ∉ w.seen → classify (some w) serial = .new ∧
      (acceptSerial (some w) serial).highest = w.highest ∧
      ∀ k, k ∈ (acceptSerial (some w) serial).seen ↔ k = 65536 - d ∨ k ∈ w.seen) ∧
    (32768 ≤ d → d < 65536 - 32 → classify (some w) serial = .stale) ∧
    (classify (some w) serial = .new →
      (acceptSerial (some w) serial).sound ∧
      classify (some (acceptSerial (some w) serial)) serial = .duplicate)

/-! ## Relaying (chapter 3) -/

/-- R49, R52, R53 and R55, with R10, R12 and R54: the offer. It comes when an entry falls due on a quiet
line, or when a backoff ends; it chooses, among the due entries, the one with the earliest due tick and
then the lowest index. A free slot on a QUIET line takes it: the copy goes out, the indication is BUSY and
the receiver OFF. Otherwise only the access state changes. Outside LINE_QUIET an entry that falls due
waits, and a backoff with nothing due ends in LINE_QUIET. At its due tick an entry is due from its falling
due on, with all the entries of that due tick (log entry 26). -/
def Obligations.OffersAreTakenOrRefused : Prop :=
  ∀ (s : State) (cfg : Configuration), s.runsWith cfg →
    let waits (i : Nat) (e : HeardEntry) (copy : List Byte) (received tick : Nat) : Prop :=
      entryAt s.relay.heard i = some e ∧ e.relay = .pending copy received tick
    let offered (cmd : Instr) (due : Nat → Prop) (dueTo : Nat) : Prop := ∀ i e copy received tick,
      waits i e copy received tick → due tick →
      (∀ j f c r d, waits j f c r d → due d → tick < d ∨ tick = d ∧ i ≤ j) →
      (s.line.slot = .idle ∧ s.line.indication = .quiet → ∃ t, exec cmd s = .next t ∧
        t.line = { s.line with slot := .sending (relayedCopy copy (s.elapsed - received)) s.elapsed,
                               indication := .busy, receiver := .off } ∧
        entryAt t.relay.heard i = some { e with relay := .sending copy received } ∧
        (∀ j, j ≠ i → entryAt t.relay.heard j = entryAt s.relay.heard j) ∧
        t.relay = { s.relay with heard := t.relay.heard, access := .transmitting, dueTo := dueTo } ∧
        t.relay.heard.length = s.relay.heard.length ∧
        s.keepsAllBut [.line, .relay] t) ∧
      (s.line.slot ≠ .idle ∨ s.line.indication = .busy →
        exec cmd s = .next (s.setRelay { s.relay with access := .lineBusy, dueTo := dueTo }))
    (∀ i, (∃ e copy received tick, waits i e copy received tick ∧ tick ≤ s.elapsed) →
      (s.relay.access = .lineQuiet → offered (.entryFallsDue i) (· ≤ s.elapsed) s.elapsed) ∧
      (s.relay.access ≠ .lineQuiet →
        exec (.entryFallsDue i) s = .next (s.setRelay { s.relay with dueTo := s.elapsed }))) ∧
    (∀ i, (∀ e copy received tick, waits i e copy received tick → s.elapsed < tick) →
      exec (.entryFallsDue i) s = .next s) ∧
    ∀ ends, s.relay.access = .backoff ends →
      (ends ≤ s.elapsed → offered .backoffEnd s.dueAt s.relay.dueTo) ∧
      (ends ≤ s.elapsed → ¬ s.someEntryDue →
        exec .backoffEnd s = .next (s.setRelay { s.relay with access := .lineQuiet })) ∧
      (s.elapsed < ends → exec .backoffEnd s = .next s)

/-- R54 and R11: the copy a station sends is its stored copy with the budget one less, the hops one more
up to 15, and the age grown by the frame time and the residence up to 65535; every other byte is as
stored, and the check is right. -/
def Obligations.RelayedCopyFields : Prop :=
  ∀ (stored : List Byte) (residence : Nat), stored.length = 30 → 1 ≤ budgetOf stored →
    let copy := relayedCopy stored residence
    copy.length = 32 ∧ checkPasses copy = true ∧ budgetOf copy + 1 = budgetOf stored ∧
    hopsOf copy = min 15 (hopsOf stored + 1) ∧
    ageOf copy = min 65535 (ageOf stored + 20 + residence) ∧ ageOf stored ≤ ageOf copy ∧
    ∀ k, k < 30 → k ≠ 4 → k ≠ 5 → k ≠ 6 → byteAt copy k = byteAt stored k

/-- R13, R56 and R58. Twenty ticks after its start, and no sooner, a transmission completes: the slot is
IDLE and the receiver LISTENING with the indication as it was, the SENDING entry is RELAYED, relayed is
counted, and the access state is LINE_BUSY. An entry that is or becomes settled is removed once its memory
time has passed, uncounted; a PENDING or SENDING entry stays. -/
def Obligations.EntriesSettleAndExpire : Prop :=
  (∀ (s : State) (cfg : Configuration) (copy : List Byte) (start : Nat), s.runsWith cfg →
    s.line.slot = .sending copy start →
    (s.elapsed < start + 20 → exec .transmissionCompletion s = .next s) ∧
    ∀ i e stored received, start + 20 ≤ s.elapsed → entryAt s.relay.heard i = some e →
      e.relay = .sending stored received →
      (∀ j f c r, entryAt s.relay.heard j = some f → f.relay = .sending c r → j = i) →
      ∃ t, exec .transmissionCompletion s = .next t ∧
        t.line = { s.line with slot := .idle, receiver := .listening,
                               cleanFrom := max s.line.cleanFrom s.elapsed } ∧
        t.counters = s.counters.add .relayed 1 ∧
        t.relay = { s.relay with heard := t.relay.heard, access := .lineBusy } ∧
        t.relay.heard.length = s.relay.heard.length ∧
        entryAt t.relay.heard i = (if e.firstHeard + 100 * cfg.heardMemory ≤ s.elapsed then none
          else some { e with relay := .relayed }) ∧
        (∀ j, j ≠ i → entryAt t.relay.heard j = entryAt s.relay.heard j) ∧
        s.keepsAllBut [.line, .relay, .counters] t) ∧
  ∀ (s : State) (cfg : Configuration) (i : Nat) (e : HeardEntry), s.runsWith cfg →
    entryAt s.relay.heard i = some e →
    (e.relay.settled = true → e.firstHeard + 100 * cfg.heardMemory ≤ s.elapsed →
      ∃ t, exec (.entryExpiry i) s = .next t ∧ entryAt t.relay.heard i = none ∧
        (∀ j, j ≠ i → entryAt t.relay.heard j = entryAt s.relay.heard j) ∧
        t.relay = { s.relay with heard := t.relay.heard } ∧
        t.relay.heard.length = s.relay.heard.length ∧ s.keepsAllBut [.relay] t) ∧
    (e.relay.settled = false ∨ s.elapsed < e.firstHeard + 100 * cfg.heardMemory →
      exec (.entryExpiry i) s = .next s)

/-- R43 and R44: a new entry takes the lowest-numbered free place; with no place free, that of the settled
entry with the earliest first heard, and among several the lowest index; with every entry PENDING or
SENDING it takes none. -/
def Obligations.PlaceForANewEntry : Prop :=
  ∀ heard : List (Option HeardEntry),
    let settled (i : Nat) (e : HeardEntry) : Prop := entryAt heard i = some e ∧ e.relay.settled = true
    (∀ i, heard[i]? = some none → (∀ j, j < i → heard[j]? ≠ some none) → placeFor heard = some i) ∧
    ((∀ slot ∈ heard, slot ≠ none) →
      (∀ i e, settled i e → (∀ j f, settled j f →
          e.firstHeard < f.firstHeard ∨ e.firstHeard = f.firstHeard ∧ i ≤ j) → placeFor heard = some i) ∧
      ((∀ i e, ¬ settled i e) → placeFor heard = none))

/-! ## Network time (chapter 4) -/

/-- R63, R64 and R80: at an elapsed tick the clock advances by one tick; at the end of an elapsed second
by two while the slew remaining is positive and by none while it is negative, and the slew remaining moves
one towards 0. At midnight today's class is tomorrow's, or WORKDAY, and tomorrow's is absent. No other
block is told unless the part is CONFIGURED. -/
def Obligations.ClockAdvancesAtEachTick : Prop :=
  ∀ s : State, s.running = true → s.time.clock.tick < 8640000 →
    let second := 0 < s.elapsed ∧ s.elapsed % 100 = 0
    let n := if second ∧ 0 < s.time.slew then 2 else if second ∧ s.time.slew < 0 then 0 else 1
    ∃ t, exec .clockAdvance s = .next t ∧
      (s.time.clock.tick + n < 8640000 →
        t.time.clock = ⟨s.time.clock.day, s.time.clock.tick + n⟩ ∧ t.time.today = s.time.today ∧
        t.time.tomorrow = s.time.tomorrow) ∧
      (8640000 ≤ s.time.clock.tick + n →
        t.time.clock = ⟨s.time.clock.day + 1, s.time.clock.tick + n - 8640000⟩ ∧
        t.time.today = s.time.tomorrow.getD .workday ∧ t.time.tomorrow = none) ∧
      t.time.slew = (if second ∧ 0 < s.time.slew then s.time.slew - 1
        else if second ∧ s.time.slew < 0 then s.time.slew + 1 else s.time.slew) ∧
      t.time.candidate = s.time.candidate ∧ t.time.state = s.time.state ∧ t.time.hold = s.time.hold ∧
      t.time.lost = s.time.lost ∧
      s.keepsAllBut [.meetings, .time, .programs, .resolver, .channels, .register, .monitor, .status] t ∧
      ((∀ cfg, s.loader.load ≠ .configured cfg) → s.keepsAllBut [.time] t)

/-- R70, R95, R96, R107, R116 and R120: what an advance of the clock brings about in a CONFIGURED part, by
the moments it crosses, in whatever order the blocks take it. An advance that reaches the pending
program's activation time activates it, which sets change pending (R198); in a valid time state one that
crosses a window's end frees every window whose end the clock has reached, and no other; a slot boundary, and in a valid time state a window's
start or end, is resolved; and nothing is resolved otherwise. Where a slot boundary meets a window's start,
each has its own resolution, in either order: the boundary taken first does not find the window yet (log
entry 25; the order is the meeting's number: log entry 5). -/
def Obligations.AdvanceReachesTheWatchers : Prop :=
  (∀ (clock : Moment) (windows : List (Option Window)),
    (freeExpired clock windows).length = windows.length ∧
    ∀ (i : Nat) (w : Window), (freeExpired clock windows)[i]? = some (some w) ↔
      windows[i]? = some (some w) ∧ ¬ (0 < (clock.day - w.stop.day).toInt ∨
        clock.day = w.stop.day ∧ 6000 * w.stop.minute ≤ clock.tick)) ∧
  ∀ (s : State) (cfg : Configuration), s.runsWith cfg → s.resolver.index = s.register →
    let crosses (m : Moment) : Prop := ∃ k, 1 ≤ k ∧ k ≤ s.time.stride (endsSecond s.elapsed) ∧
      m = s.time.clock.later k
    let starts := s.time.state.valid = true ∧ ∃ slot ∈ s.resolver.windows, ∃ w ∈ slot, crosses w.start.moment
    let ends := s.time.state.valid = true ∧ ∃ slot ∈ s.resolver.windows, ∃ w ∈ slot, crosses w.stop.moment
    let boundary := ∃ m, crosses m ∧ m.tick % 180000 = 0
    let reached (p : Program) : Prop := crosses p.activation ∧ (p.activation = ⟨0, 0⟩ ∨
      s.time.state.valid = true ∧
        (s.time.clock.later (s.time.stride (endsSecond s.elapsed))).hasReached p.activation = true)
    ∃ t, exec .clockAdvance s = .next t ∧
      (ends → t.resolver.windows = freeExpired t.time.clock s.resolver.windows) ∧
      (¬ ends → t.resolver.windows = s.resolver.windows) ∧
      s.status.mayNote t.status ∧
      (∀ p, s.programs.next = some p → reached p → t.status.changePending = true ∧
        t.programs = { s.programs with active := some p, next := none }) ∧
      ((∀ p, s.programs.next = some p → ¬ reached p) → t.programs = s.programs) ∧
      (starts ∨ ends ∨ boundary ∨ t.programs ≠ s.programs →
        t.resolver.band = bandNow t.programs.active t.time t.resolver.windows ∧
        t.register = registerIndex cfg t.programs.active t.time t.resolver.windows) ∧
      (¬ (starts ∨ ends ∨ boundary) → t.programs = s.programs →
        s.keepsAllBut [.meetings, .time] t) ∧
      (starts → boundary → ¬ ends → (∀ p, s.programs.next = some p → ¬ crosses p.activation) →
        ∀ others : List (Option Window), others.length = s.resolver.windows.length →
        (∀ (i : Nat) (w : Window), others[i]? = some (some w) ↔
          s.resolver.windows[i]? = some (some w) ∧ ¬ crosses w.start.moment) →
        let now := (s.setTime t.time).setMeetings s.meetings.tail
        (s.meetings.headD 0 % 2 = 0 → t = (now.resolveOver cfg others).resolve cfg) ∧
        (s.meetings.headD 0 % 2 = 1 → t = now.resolve cfg))

/-- R66, with R69 and R70: each of the two countdowns runs down by one at an elapsed second, stopping at
0; the hold countdown's end turns SYNCED into HOLDOVER, the lost countdown's end turns SYNCED or HOLDOVER
into LOST, and the clock is left as it stands. A change of time state sets change pending, and in a
CONFIGURED part TIME_INVALID, the examination of the pending program (R95) and the resolution follow it
(while LOADING no other block is told: log entry 20). UNCONFIGURED, neither countdown runs. Each command is
its countdown's whole step (log entry 2). -/
def Obligations.TimeCountdownsRunDown : Prop :=
  ∀ (s : State) (cmd : Instr) (f : Timekeeper → Timekeeper), s.running = true →
    (cmd = .holdCountdownExpiry ∧ f = (fun t => { t with hold := t.hold - 1, state :=
        if t.hold = 1 ∧ t.state = .synced then .holdover else t.state })) ∨
    (cmd = .lostCountdownExpiry ∧ f = (fun t => { t with lost := t.lost - 1, state :=
        if t.lost = 1 ∧ t.state.valid = true then .lost else t.state })) →
    (s.loader.load = .unconfigured → exec cmd s = .next s) ∧
    (s.loader.load ≠ .unconfigured → ∃ t, exec cmd s = .next t ∧ t.time = f s.time ∧
      (t.time.state = s.time.state → s.keepsAllBut [.time] t) ∧
      (t.time.state ≠ s.time.state → t.status = { s.status with changePending := true } ∧
        (s.loader.load = .loading → s.keepsAllBut [.time, .status] t) ∧
        s.keepsAllBut [.meetings, .time, .programs, .resolver, .channels, .register, .monitor,
          .status] t ∧
        ∀ cfg, s.loader.load = .configured cfg →
          t.monitor.conditions.timeInvalid = !t.time.state.valid ∧
          t.programs = s.programs.examined t.time ∧
          t.resolver.windows = s.resolver.windows ∧
          t.resolver.band = bandNow t.programs.active t.time t.resolver.windows ∧
          (s.resolver.index = s.register →
            t.register = registerIndex cfg t.programs.active t.time t.resolver.windows)))

/-- R72 to R79: the estimate of a valid beacon, the decision on it, what the decision makes of the
Timekeeper, and the day classes. UNSET, the beacon sets the clock; within tolerance it is adopted by slew;
beyond tolerance it is held as the candidate, unless a candidate less than 6000 ticks old, projected to
now, lies within the step threshold of it, when the clock is stepped. The classes are taken by the clock's
day after that. -/
def Obligations.BeaconsAreDecided : Prop :=
  (∀ (b : Beacon) (age : Nat), b.at_.tick < 8640000 → age < 30000 →
    let e := b.at_.tick + age + 20
    e < 2 * 8640000 ∧
    (e < 8640000 → b.estimate age = ⟨b.at_.day, e⟩) ∧
    (8640000 ≤ e → b.estimate age = ⟨b.at_.day + 1, e - 8640000⟩) ∧
    (b.estimate age).tick < 8640000 ∧ ((65535#16 : Word) + 1 = 0)) ∧
  (∀ (cfg : Configuration) (now : Nat) (t : Timekeeper) (e : Moment),
    let distance (a b : Moment) : Int := dayDiff a.day b.day * 8640000 + a.tick - b.tick
    let near (a b : Moment) : Prop := (-1 ≤ dayDiff a.day b.day ∧ dayDiff a.day b.day ≤ 1) ∧
      (distance a b).natAbs ≤ cfg.stepThreshold
    let done := t.obey cfg now e (t.judge cfg now e)
    let adopted : Timekeeper := { t with state := .synced, hold := 60 * cfg.holdLimit,
                                         lost := 3600 * cfg.lostLimit, candidate := none }
    let set : Timekeeper := { adopted with clock := e, slew := 0, tomorrow :=
      if e.day = t.clock.day then t.tomorrow else none }
    (t.state = .unset → done = set) ∧
    (t.state ≠ .unset → near e t.clock → done = { adopted with slew := distance e t.clock }) ∧
    (t.state ≠ .unset → ¬ near e t.clock →
      (t.candidate = none → done = { t with candidate := some ⟨e, now⟩ }) ∧
      ∀ c, t.candidate = some c →
        (now - c.heldAt < 6000 ∧ near e (c.estimate.later (now - c.heldAt)) → done = set) ∧
        (¬ (now - c.heldAt < 6000 ∧ near e (c.estimate.later (now - c.heldAt))) →
          done = { t with candidate := some ⟨e, now⟩ }))) ∧
  ∀ (b : Beacon) (t : Timekeeper),
    (t.clock.day = b.at_.day → t.takeClasses b = { t with today := b.today, tomorrow := some b.tomorrow }) ∧
    (t.clock.day = b.at_.day + 1 → t.takeClasses b = { t with today := b.tomorrow }) ∧
    (t.clock.day = b.at_.day - 1 → t.takeClasses b = { t with tomorrow := some b.today }) ∧
    (t.clock.day ≠ b.at_.day → t.clock.day ≠ b.at_.day + 1 → t.clock.day ≠ b.at_.day - 1 →
      t.takeClasses b = t)

/-- R32 and R71, with R70, R77, R78, R95, R107, R116 and R151: what an accepted TIME telegram does, in
whatever order the blocks take it. A beacon that is not valid counts time_rejected and leaves the
Timekeeper alone. A valid one is decided and gives its day classes; an adoption counts time_accepted and a
step counts steps and starts the TIME_STEP hold, which takes no decrease at this same tick (log entry 28);
a setting, a step, and a time state that becomes valid free the expired windows; a setting, a step and a
change of time state examine the pending program; and every setting, step, change of time state and change
of today's class is resolved. A change of time state, an activation and a change of condition set change pending
(R198). -/
def Obligations.AcceptedBeaconReachesTheTimekeeper : Prop :=
  ∀ (s : State) (cfg : Configuration) (bytes : List Byte) (levels : Rat),
    s.runsWith cfg → s.endsReception bytes → s.accepts cfg bytes → kindOf bytes = 1 →
    let b := beaconOf (payloadOf bytes)
    let valid := ageOf bytes < cfg.beaconMaxAge ∧ b.at_.tick < 8640000
    let d := s.time.judge cfg s.elapsed (b.estimate (ageOf bytes))
    ∃ t, exec (.receptionEnd bytes levels) s = .next t ∧
      (¬ valid → t.counters.timeRejected = saturate s.counters.timeRejected 1 ∧
        t.counters.timeAccepted = s.counters.timeAccepted ∧ t.counters.steps = s.counters.steps ∧
        s.keepsAllBut [.meetings, .line, .origins, .relay, .channels, .monitor, .status, .counters] t) ∧
      (valid →
        t.time = (s.time.obey cfg s.elapsed (b.estimate (ageOf bytes)) d).takeClasses b ∧
        s.status.mayNote t.status ∧
        (t.time.state ≠ s.time.state ∨ t.programs ≠ s.programs ∨
          t.monitor.conditions ≠ s.monitor.conditions → t.status.changePending = true) ∧
        t.counters.timeRejected = s.counters.timeRejected ∧
        t.counters.timeAccepted = (if d = .holdCandidate then s.counters.timeAccepted
          else saturate s.counters.timeAccepted 1) ∧
        t.counters.steps = (if d = .step then saturate s.counters.steps 1 else s.counters.steps) ∧
        t.monitor.stepHold = (if d = .step then 300 else s.monitor.stepHold) ∧
        t.monitor.stepHoldSet = (if d = .step then true else s.monitor.stepHoldSet) ∧
        t.monitor.conditions.timeStep = (if d = .step then true else s.monitor.conditions.timeStep) ∧
        t.monitor.conditions.timeInvalid = (if t.time.state = s.time.state then
          s.monitor.conditions.timeInvalid else !t.time.state.valid) ∧
        t.resolver.windows = (if d = .firstSetting ∨ d = .step ∨
            (s.time.state.valid = false ∧ t.time.state.valid = true) then
          freeExpired t.time.clock s.resolver.windows else s.resolver.windows) ∧
        t.programs = (if d = .firstSetting ∨ d = .step ∨ t.time.state ≠ s.time.state then
          s.programs.examined t.time else s.programs) ∧
        (d = .firstSetting ∨ d = .step ∨ t.time.state ≠ s.time.state ∨ t.time.today ≠ s.time.today →
          t.resolver.band = bandNow t.programs.active t.time t.resolver.windows ∧
          (s.resolver.index = s.register →
            t.register = registerIndex cfg t.programs.active t.time t.resolver.windows)))

/-! ## Programs (chapter 5) -/

/-- R33 and R90 to R93: what an accepted SEGMENT telegram does at the Program Collector, and the assembly
countdown. A segment of another origin or of index 8 or more is not collected. A collected one opens a
record, from empty or by a newer id, fills its place in a record of its id, or is dropped by a newer
record. The eighth distinct segment completes the assembly: a program that fails its check, has no tick of
a day as its activation tick, or is not newer than each program held is discarded; any other is pending,
and is examined for activation at once. The activation sets change pending (R96, R198), and nothing else here
does, a SILENCE that the acceptance clears apart. The countdown's end discards the record (ASSEMBLY_TIMEOUT is the
countdown's whole step at an elapsed second: log entry 2). -/
def Obligations.SegmentsAreCollectedAndJudged : Prop :=
  (∀ (s : State) (cfg : Configuration) (bytes : List Byte) (levels : Rat),
    s.runsWith cfg → s.endsReception bytes → s.accepts cfg bytes → kindOf bytes = 3 →
    addresses cfg (targetOf bytes) = true →
    let id := segmentId (payloadOf bytes)
    let k := segmentIndex (payloadOf bytes)
    let data := segmentData (payloadOf bytes)
    let fresh : Staging := ⟨id, (List.replicate 8 none).set k (some data), 900⟩
    ∃ t, exec (.receptionEnd bytes levels) s = .next t ∧
      let keptCounts := t.counters.progComplete = s.counters.progComplete ∧
        t.counters.progDiscarded = s.counters.progDiscarded
      let unreported := s.monitor.conditions.silence = false → t.status = s.status
      let stored (g : Staging) : Prop :=
        (none ∈ g.segments → t.programs = { s.programs with staging := some g } ∧ keptCounts ∧
          unreported) ∧
        (none ∉ g.segments →
          let image := assembledImage g.segments
          let p := programOf image
          let taken := programPasses image = true ∧ p.activation.tick < 8640000 ∧
            (∀ q ∈ s.programs.next, newer p.id q.id = true) ∧ ∀ q ∈ s.programs.active, newer p.id q.id = true
          let due := p.activation = ⟨0, 0⟩ ∨ s.time.state.valid = true ∧
            s.time.clock.hasReached p.activation = true
          (¬ taken → t.programs = { s.programs with staging := none } ∧ unreported ∧
            t.counters.progComplete = s.counters.progComplete ∧
            t.counters.progDiscarded = saturate s.counters.progDiscarded 1) ∧
          (taken →
            t.programs = (if due then ⟨none, none, some p⟩ else ⟨none, some p, s.programs.active⟩) ∧
            (due → t.status.changePending = true) ∧ (¬ due → unreported) ∧
            t.counters.progComplete = saturate s.counters.progComplete 1 ∧
            t.counters.progDiscarded = s.counters.progDiscarded))
      (s.origins.primary ≠ some (originOf bytes) ∨ 8 ≤ k → t.programs = s.programs ∧ keptCounts ∧ unreported) ∧
      (s.origins.primary = some (originOf bytes) → k ≤ 7 →
        (s.programs.staging = none → stored fresh) ∧
        ∀ g, s.programs.staging = some g →
          (newer id g.id = true → stored fresh) ∧
          (id = g.id → stored { g with segments := g.segments.set k (some data) }) ∧
          (newer id g.id = false → id ≠ g.id → none ∈ g.segments →
            t.programs = s.programs ∧ keptCounts ∧ unreported))) ∧
  ∀ (s : State) (cfg : Configuration), s.runsWith cfg →
    (∀ g, s.programs.staging = some g → 2 ≤ g.countdown →
      exec .assemblyTimeout s = .next (s.setPrograms { s.programs with
        staging := some { g with countdown := g.countdown - 1 } })) ∧
    (∀ g, s.programs.staging = some g → g.countdown ≤ 1 →
      ∃ t, exec .assemblyTimeout s = .next t ∧ t.programs = { s.programs with staging := none } ∧
        t.counters = s.counters.add .progDiscarded 1 ∧ s.keepsAllBut [.programs, .counters] t) ∧
    (s.programs.staging = none → exec .assemblyTimeout s = .next s)

/-- R84 to R88: the check covers image bytes 0 to 7 and 10 to 137; the program of an image is clamped: a
class of 5, 6 or 7 is CRITICAL, a register index of 0 is 1 and one of 9 to 15 is 8; the grid entry in force
at a tick of a day is the half byte of its class and half-hour slot; byte 7 carries the default band in bits
3 to 0 and grid enable in bit 7; and bytes 138 to 143 are not read. -/
def Obligations.ProgramImagesAreClamped : Prop :=
  ∀ image : List Byte,
    let p := programOf image
    (programPasses image = true ↔ crc16 (image.take 8 ++ (image.drop 10).take 128) = wordAt image 8) ∧
    (p.activation.tick < 8640000 → p.inRange) ∧
    p.id = wordAt image 0 ∧ p.activation = ⟨wordAt image 2, nat24At image 4⟩ ∧
    p.defaultBand = (byteAt image 7).toNat % 16 ∧ (p.gridEnable = true ↔ (byteAt image 7).toNat / 128 = 1) ∧
    (∀ n, n < 16 →
      let cls := (byteAt image (10 + 2 * n)).toNat / 32
      let index := (byteAt image (10 + 2 * n)).toNat % 16
      (cls ≤ 4 → (p.band n).cls.rank = cls) ∧ (5 ≤ cls → (p.band n).cls = .critical) ∧
      (index = 0 → (p.band n).register = 1) ∧ (1 ≤ index → index ≤ 8 → (p.band n).register = index) ∧
      (9 ≤ index → (p.band n).register = 8) ∧
      ∀ c, (p.band n).action.get c = .on ↔
        (byteAt image (11 + 2 * n)).toNat / 2 ^ channelPlace c % 2 = 1) ∧
    (∀ cls tick, tick < 8640000 →
      let slot := tick / 180000
      let half := (byteAt image (42 + 24 * cls.code + slot / 2)).toNat
      p.gridBand cls tick = if slot % 2 = 0 then half / 16 else half % 16) ∧
    ∀ other : List Byte, other.take 138 = image.take 138 → programOf other = p

/-! ## Tariff resolution (chapter 6) -/

/-- R103 and R109 to R112: which band is resolved with an active program. In a valid time state the
covering REPLACE window of highest rank, and of several the one in the lowest slot, imposes its band;
without one, the covering OVERLAY window so chosen imposes its band unless the grid band ranks higher;
without either it is the grid band. In an invalid time state it is the WORKDAY grid, or the default band. -/
def Obligations.ResolvedBandIsChosen : Prop :=
  ∀ (p : Program) (t : Timekeeper) (windows : List (Option Window)),
    let reached (m : Minute) : Prop := 0 < (t.clock.day - m.day).toInt ∨
      t.clock.day = m.day ∧ 6000 * m.minute ≤ t.clock.tick
    let covers (mode : WindowMode) (i : Nat) (w : Window) : Prop := windows[i]? = some (some w) ∧
      w.mode = mode ∧ reached w.start ∧ ¬ reached w.stop
    let chosen (mode : WindowMode) (w : Window) : Prop := ∃ i, covers mode i w ∧
      ∀ j v, covers mode j v → p.rank v.band < p.rank w.band ∨ p.rank v.band = p.rank w.band ∧ i ≤ j
    let grid := if p.gridEnable then p.gridBand t.today t.clock.tick else p.defaultBand
    let source : BandSource := if p.gridEnable then .grid else .default
    (t.state.valid = true →
      (∀ w, chosen .replace w → resolvedBand p t windows = (w.band, .replace)) ∧
      ((∀ i w, ¬ covers .replace i w) →
        (∀ w, chosen .overlay w →
          (p.rank grid ≤ p.rank w.band → resolvedBand p t windows = (w.band, .overlay)) ∧
          (p.rank w.band < p.rank grid → resolvedBand p t windows = (grid, source))) ∧
        ((∀ i w, ¬ covers .overlay i w) → resolvedBand p t windows = (grid, source)))) ∧
    (t.state.valid = false → resolvedBand p t windows =
      (if p.gridEnable then p.gridBand .workday t.clock.tick else p.defaultBand, .invalidTime))

/-- R113 to R115 and R180: a resolution hands the band to every controller when its number, its program, or
none against a band has changed, and the register index to the Output Stage when it has changed; a
resolution that finds what was last handed is not seen outside. The index is the resolved band's in a valid
time state with an active program, and the fallback register otherwise, and it lies in 1 to 8. The register
lines present the index less one, in every state (while the part is stopped too: log entry 15). -/
def Obligations.ResolutionHandsWhatChanged : Prop :=
  (∀ s : State, 1 ≤ s.register → s.register ≤ 8 →
    s.registerLines.toNat = s.register - 1 ∧ (s.register = 1 ↔ s.registerLines = 0#3) ∧
    (s.register = 8 ↔ s.registerLines = 7#3)) ∧
  ∀ (s : State) (cfg : Configuration), s.resolver.index = s.register →
    let t := s.resolve cfg
    let band := s.programs.active.map fun p =>
      (⟨(resolvedBand p s.time s.resolver.windows).1, p.id⟩ : ResolvedBand)
    t.resolver.band = band ∧ t.resolver.windows = s.resolver.windows ∧ t.resolver.index = t.register ∧
    (∀ p, s.programs.active = some p → s.time.state.valid = true →
      t.register = (p.band (resolvedBand p s.time s.resolver.windows).1).register) ∧
    (s.programs.active = none ∨ s.time.state.valid = false → t.register = cfg.fallbackRegister) ∧
    (cfg.inRange → s.programs.ordered → 1 ≤ t.register ∧ t.register ≤ 8) ∧
    (s.resolver.band ≠ band → ∀ c, (t.channels.get c).band = s.programs.active.map fun p =>
      let b := p.band (resolvedBand p s.time s.resolver.windows).1
      ⟨(resolvedBand p s.time s.resolver.windows).1, b.cls, b.action.get c⟩) ∧
    (s.resolver.band = band → t.channels = s.channels) ∧
    (t.register ≠ s.register → t.status.changePending = true) ∧
    (s.resolver.band = band → t.register = s.register → t = s) ∧
    s.keepsAllBut [.resolver, .channels, .register, .status] t

/-- R104, R106 and R107, with R116 and R119: an accepted window order. It is refused, with nothing else
changed in the resolver, for a slot it may not name, an end not after its start, or a newer window of the
same origin in its slot. SET WINDOW writes the slot and frees every expired window in a valid time state;
CLEAR WINDOW frees the slot, or with 255 every slot but those that a newer window of the same origin
holds. Each counts once, and what it changes is resolved. (With days 32768 apart the end counts as not after
the start: log entry 29.) -/
def Obligations.WindowOrdersAreJudged : Prop :=
  ∀ (s : State) (cfg : Configuration) (bytes : List Byte) (levels : Rat),
    s.runsWith cfg → s.endsReception bytes → s.accepts cfg bytes → kindOf bytes = 2 →
    addresses cfg (targetOf bytes) = true → s.resolver.windows.length = 24 →
    let superseding (w : Window) : Prop := w.setOrigin = originOf bytes ∧
      newer w.setSerial (serialOf bytes) = true
    let held (slot : Nat) : Prop := ∃ w, s.resolver.windows[slot]? = some (some w) ∧ superseding w
    let before (a b : Minute) : Prop := 0 < (b.day - a.day).toInt ∨ a.day = b.day ∧ a.minute < b.minute
    ∃ t, exec (.receptionEnd bytes levels) s = .next t ∧
      let refused := t.resolver = s.resolver ∧ t.register = s.register ∧
        t.counters.ordersRefused = saturate s.counters.ordersRefused 1 ∧
        t.counters.ordersApplied = s.counters.ordersApplied
      let applied := t.counters.ordersRefused = s.counters.ordersRefused ∧
        t.counters.ordersApplied = saturate s.counters.ordersApplied 1
      let resolved := t.resolver.band = bandNow s.programs.active s.time t.resolver.windows ∧
        (s.resolver.index = s.register →
          t.register = registerIndex cfg s.programs.active s.time t.resolver.windows)
      (∀ slot start stop band mode, orderOf (payloadOf bytes) = .setWindow slot start stop band mode →
        (23 < slot ∨ ¬ before start stop ∨ held slot → refused) ∧
        (slot ≤ 23 → before start stop → ¬ held slot → applied ∧ resolved ∧
          let written := s.resolver.windows.set slot
            (some ⟨start, stop, band, mode, originOf bytes, serialOf bytes⟩)
          t.resolver.windows = if s.time.state.valid then freeExpired s.time.clock written else written)) ∧
      (∀ slot, orderOf (payloadOf bytes) = .clearWindow slot →
        (23 < slot ∧ slot ≠ 255 ∨ slot ≤ 23 ∧ held slot → refused) ∧
        (slot ≤ 23 → ¬ held slot → applied ∧ t.resolver.windows = s.resolver.windows.set slot none ∧
          (s.resolver.windows[slot]? = some none → t.resolver = s.resolver) ∧
          (s.resolver.windows[slot]? ≠ some none → resolved)) ∧
        (slot = 255 → applied ∧ t.resolver.windows.length = 24 ∧
          (∀ (i : Nat) (w : Window), t.resolver.windows[i]? = some (some w) ↔
            s.resolver.windows[i]? = some (some w) ∧ superseding w) ∧
          (t.resolver.windows = s.resolver.windows → t.resolver = s.resolver) ∧
          (t.resolver.windows ≠ s.resolver.windows → resolved))) ∧
      t.time = s.time ∧ t.programs = s.programs

/-! ## Orders and overrides (chapter 7) -/

/-- R14 to R20, R31, R71 and R203, with R104, R127, R132, R136, R138 and R156: how a telegram is read. Its
header's fields by section 12.1; a TIME payload, with class values above 3 as SPECIAL; a SEGMENT payload;
the target 0 or a configured group, which addresses the station; and the eight orders, read and clamped, by
the order code in payload byte 0 and the channel set in byte 1; any other code is unknown. -/
def Obligations.OrdersAreReadAndClamped : Prop :=
  (∀ copy : List Byte,
    let b (i : Nat) : Nat := (byteAt copy i).toNat
    kindOf copy = b 0 / 16 ∧ originOf copy = byteAt copy 1 ∧ (serialOf copy).toNat = 256 * b 2 + b 3 ∧
    budgetOf copy = b 4 / 16 ∧ hopsOf copy = b 4 % 16 ∧ ageOf copy = 256 * b 5 + b 6 ∧
    targetOf copy = byteAt copy 7 ∧
    (copy.length = 32 → (payloadOf copy).length = 22 ∧
      (∀ i, i < 22 → byteAt (payloadOf copy) i = byteAt copy (8 + i)) ∧
      (checkPasses copy = true ↔ (crc16 (copy.take 30)).toNat = 256 * b 30 + b 31))) ∧
  (∀ (cfg : Configuration) (target : Byte),
    addresses cfg target = true ↔ target = 0 ∨ target ∈ cfg.groups) ∧
  ∀ payload : List Byte,
    let at_ (i : Nat) : Nat := (byteAt payload i).toNat
    let classOf (v : Nat) : DayClass :=
      if v = 0 then .workday else if v = 1 then .saturday else if v = 2 then .sundayHoliday else .special
    let beacon := beaconOf payload
    beacon.at_.day.toNat = 256 * at_ 0 + at_ 1 ∧ beacon.at_.tick = 65536 * at_ 2 + 256 * at_ 3 + at_ 4 ∧
    beacon.today = classOf (at_ 5) ∧ beacon.tomorrow = classOf (at_ 6) ∧
    (segmentId payload).toNat = 256 * at_ 0 + at_ 1 ∧ segmentIndex payload = at_ 2 ∧
    (payload.length = 22 → (segmentData payload).length = 18 ∧
      ∀ i, i < 18 → byteAt (segmentData payload) i = byteAt payload (3 + i)) ∧
    let b (i : Nat) : Nat := (byteAt payload (2 + i)).toNat
    let n (i : Nat) : Nat := 256 * b i + b (i + 1)
    let within (low high x : Nat) : Nat := if x < low then low else if high < x then high else x
    (byteAt payload 0 = 1 → orderOf payload = .record (.switch (if b 0 % 2 = 1 then .on else .off)
      (within 0 1080 (n 1)) (b 3) (within 0 1080 (n 4)))) ∧
    (byteAt payload 0 = 2 → orderOf payload = .record (.cycle (within 10 3600 (n 0)) (within 10 3600 (n 2))
      (within 0 1080 (n 4)) (b 6 % 2 = 1) (b 6 / 2 % 2 = 1))) ∧
    (byteAt payload 0 = 3 →
      let m : Int := if n 0 < 32768 then n 0 else (n 0 : Int) - 65536
      orderOf payload = .record (.adjust (if m < -1080 then -1080 else if 1080 < m then 1080 else m))) ∧
    (byteAt payload 0 = 4 → orderOf payload = .record (.cancel (b 0 % 2 = 1))) ∧
    (byteAt payload 0 = 5 → orderOf payload = .setWindow (b 0)
      ⟨wordAt payload 3, within 0 1439 (n 3 % 2048)⟩ ⟨wordAt payload 7, within 0 1439 (n 7 % 2048)⟩
      (b 9 % 16) (if b 9 / 128 = 1 then .replace else .overlay)) ∧
    (byteAt payload 0 = 6 → orderOf payload = .clearWindow (b 0)) ∧
    (byteAt payload 0 = 7 → orderOf payload = .forceSafe (b 0 % 2 = 1)) ∧
    (byteAt payload 0 = 8 → orderOf payload = .release) ∧
    (byteAt payload 0 = 0 ∨ 9 ≤ (byteAt payload 0).toNat → orderOf payload = .unknown) ∧
    ∀ c, namesChannel payload c = true ↔ (byteAt payload 1).toNat / 2 ^ channelPlace c % 2 = 1

/-- R128 and R129. A SWITCH that passes the superseding test (R126: the record is not of the same origin with
a newer serial) falls into one of four cases by its delay,
its run and the telegram's age: it writes the record whole, or it has expired on arrival and only counts
as refused. A change of kind is reported (R123, R198). What passes the test at serials exactly 32768 apart is
log entry 30's choice. -/
def Obligations.SwitchFallsIntoFourCases : Prop :=
  ∀ (cc : ChannelConfig) (slot age delay spread duration : Nat) (level : Level) (origin : Byte) (serial : Word)
    (u : ChannelUnit), cc.used = true → slot ≤ 255 → delay ≤ 1080 → spread ≤ 255 → duration ≤ 1080 →
    let superseded : Prop := match u.override.source with
      | none | some .boost => False
      | some (.remote by_ held) => by_ = origin ∧ 1 ≤ (held - serial).toNat ∧ (held - serial).toNat ≤ 32767
    ¬ superseded →
    let a := age / 100
    let d := delay * 60 + spread * 60 * slot / 256
    let r := duration * 60
    let done := (Work.idle u).order cc slot origin serial age (.switch level delay spread duration)
    let written (phase : Phase) : Prop :=
      done.unit.override = ⟨.force level phase, some (.remote origin serial)⟩ ∧
      ((∀ old, u.override.imposed ≠ .force level old) → done.changed = true) ∧
      done.applied = 1 ∧ done.refused = 0
    d ≤ 80040 ∧
    (a < d → written (.delay (min 65535 (d - a)) (if duration = 0 then .indefinite else .left r))) ∧
    (d ≤ a → duration = 0 → written (.run .indefinite)) ∧
    (d ≤ a → 0 < duration → a - d < r → written (.run (.left (r - (a - d))))) ∧
    (d ≤ a → 0 < duration → r ≤ a - d → done = ⟨u, false, 0, 1⟩)

/-- R124, R126, R133, R134, R137, R138 and R139: what CYCLE, ADJUST and CANCEL make of a channel's record.
An unused channel is passed over; a record of the same origin with a newer serial refuses the order, and a
record of another origin, of a boost or of no source passes it; a CYCLE is taken at once, is staged behind a running cycle, or has expired; an ADJUST changes a run that is
not indefinite (in DELAY the run to come), or ends the override, and is refused where there is none; a
CANCEL ends the override, or lets a cycle finish its period. A change of kind is reported (R123, R198). A record's serial exactly 32768 from the order's
is not newer (log entry 30). -/
def Obligations.OrdersActOnTheRecord : Prop :=
  ∀ (cc : ChannelConfig) (slot age : Nat) (origin : Byte) (serial : Word) (u : ChannelUnit),
    slot ≤ 255 →
    let superseded : Prop := match u.override.source with
      | none | some .boost => False
      | some (.remote by_ held) => by_ = origin ∧ 1 ≤ (held - serial).toNat ∧ (held - serial).toNat ≤ 32767
    let done (o : ChannelOrder) : Work := (Work.idle u).order cc slot origin serial age o
    let refused (o : ChannelOrder) : Prop := done o = ⟨u, false, 0, 1⟩
    let leaves (o : ChannelOrder) (i : Imposed) : Prop := (done o).unit.override =
      ⟨i, some (.remote origin serial)⟩ ∧ (done o).applied = 1 ∧ (done o).refused = 0 ∧
      (i.kind ≠ u.override.imposed.kind → (done o).changed = true)
    (cc.used = false → ∀ o, done o = ⟨u, false, 0, 0⟩) ∧
    (cc.used = true → superseded → ∀ o, refused o) ∧
    (cc.used = true → ¬ superseded →
      (∀ off on duration spread immediate, 10 ≤ off → 10 ≤ on →
        let o : ChannelOrder := .cycle off on duration spread immediate
        let p := if spread then (off + on) * slot / 256 else 0
        let atOnce : Prop := immediate = true ∨ ∀ f, u.override.imposed ≠ .cycle f
        let starts (r : Run) : Prop := p < off + on ∧
          (p < off → leaves o (.cycle ⟨off, on, .off, off - p, r, none, false⟩)) ∧
          (off ≤ p → leaves o (.cycle ⟨off, on, .on, off + on - p, r, none, false⟩))
        (atOnce → duration = 0 → starts .indefinite) ∧
        (atOnce → 0 < duration → age / 100 < duration * 60 →
          starts (.left (duration * 60 - age / 100))) ∧
        (atOnce → 0 < duration → duration * 60 ≤ age / 100 → refused o) ∧
        ∀ f, u.override.imposed = .cycle f → immediate = false →
          leaves o (.cycle { f with staged := some ⟨off, on, duration⟩, finish := false })) ∧
      (∀ minutes : Int, let o : ChannelOrder := .adjust minutes
        let changes (n : Nat) (made : Nat → Imposed) : Prop :=
          ((n : Int) + minutes * 60 ≤ 0 → leaves o .none) ∧
          (0 < (n : Int) + minutes * 60 → leaves o (made (min 65535 ((n : Int) + minutes * 60).toNat)))
        (u.override.imposed = .none → refused o) ∧
        (∀ l d, u.override.imposed = .force l (.delay d .indefinite) → refused o) ∧
        (∀ l, u.override.imposed = .force l (.run .indefinite) → refused o) ∧
        (∀ f, u.override.imposed = .cycle f → f.run = .indefinite → refused o) ∧
        (∀ l d n, u.override.imposed = .force l (.delay d (.left n)) →
          changes n fun m => .force l (.delay d (.left m))) ∧
        (∀ l n, u.override.imposed = .force l (.run (.left n)) →
          changes n fun m => .force l (.run (.left m))) ∧
        ∀ f n, u.override.imposed = .cycle f → f.run = .left n →
          changes n fun m => .cycle { f with run := .left m }) ∧
      (u.override.imposed = .none → ∀ finish, leaves (.cancel finish) .none) ∧
      (∀ l phase, u.override.imposed = .force l phase → ∀ finish, leaves (.cancel finish) .none) ∧
      ∀ f, u.override.imposed = .cycle f → leaves (.cancel false) .none ∧
        leaves (.cancel true) (.cycle { f with finish := true, staged := none }))

/-- R34, R125, R129, R143 and R156, R162: an accepted order for channels acts on each channel it names,
each on its own, and on no other; each named channel counts it for itself; a change that one of them reports
sets change pending (R198), and the Status Port is otherwise as before; an order code outside the eight counts
once as refused. While SILENCE is active the acceptance clears it in the same instant (R150), so it
is taken not to be. -/
def Obligations.OrdersReachTheNamedChannels : Prop :=
  ∀ (s : State) (cfg : Configuration) (bytes : List Byte) (levels : Rat),
    s.runsWith cfg → s.endsReception bytes → s.accepts cfg bytes → kindOf bytes = 2 →
    addresses cfg (targetOf bytes) = true → s.monitor.conditions.silence = false →
    ∃ t, exec (.receptionEnd bytes levels) s = .next t ∧
      let acts (f : ChannelConfig → Work → Work) : Prop :=
        let work (c : Channel) : Work := if namesChannel (payloadOf bytes) c then
          f (cfg.channel c) (Work.idle (s.channels.get c)) else Work.idle (s.channels.get c)
        (∀ c, t.channels.get c = (work c).unit) ∧
        t.counters.ordersApplied =
          saturate s.counters.ordersApplied (channelList.map fun c => (work c).applied).sum ∧
        t.counters.ordersRefused =
          saturate s.counters.ordersRefused (channelList.map fun c => (work c).refused).sum ∧
        t.status = { s.status with changePending :=
          s.status.changePending || channelList.any fun c => (work c).changed } ∧
        s.keepsAllBut [.meetings, .line, .origins, .relay, .channels, .monitor, .status, .counters] t
      (∀ o, orderOf (payloadOf bytes) = .record o → acts fun cc w =>
        w.order cc cfg.stagger (originOf bytes) (serialOf bytes) (ageOf bytes) o) ∧
      (∀ on, orderOf (payloadOf bytes) = .forceSafe on → acts fun cc w =>
        w.forceSafe cc cfg.stagger s.monitor.conditions (originOf bytes) (serialOf bytes) on) ∧
      (orderOf (payloadOf bytes) = .release → acts fun cc w => w.release cc) ∧
      (orderOf (payloadOf bytes) = .unknown → t.channels = s.channels ∧ t.status = s.status ∧
        t.counters.ordersRefused = saturate s.counters.ordersRefused 1 ∧
        t.counters.ordersApplied = s.counters.ordersApplied)

/-- R130, R131, R135 and R143: the step of a channel's override record at an elapsed second. The countdown
that runs falls by one; a delay that ends begins the run, a run that ends ends the override, and a portion
that ends turns the cycle. Only where the phase changes, the override ends or the portion changes is the
requested level worked out afresh. An override that ends sets change pending (R123, R198). Each of the three
commands is the whole step (log entry 2). -/
def Obligations.RecordStepsAtEachSecond : Prop :=
  ∀ (s : State) (cfg : Configuration) (c : Channel) (cmd : Instr), s.runsWith cfg →
    cmd = .delayEnd c ∨ cmd = .runEnd c ∨ cmd = .portionEnd c →
    let u := s.channels.get c
    ∃ t, exec cmd s = .next t ∧ (∀ d, d ≠ c → t.channels.get d = s.channels.get d) ∧
      s.keepsAllBut [.channels, .status] t ∧
      let v := t.channels.get c
      let becomes (i : Imposed) (event : Bool) : Prop := v.override = { u.override with imposed := i } ∧
        (event = false → v = { u with override := { u.override with imposed := i } } ∧
          t.status = s.status) ∧
        (event = true → u.handed ≠ none → v.handed = some (v.requested (cfg.channel c)))
      v.state = u.state ∧ v.band = u.band ∧ v.input = u.input ∧ v.forced = u.forced ∧ v.setter = u.setter ∧
      s.status.mayNote t.status ∧
      (u.override.imposed ≠ .none → v.override.imposed = .none → t.status.changePending = true) ∧
      (u.override.imposed = .none → becomes .none false) ∧
      (∀ l n r, u.override.imposed = .force l (.delay n r) →
        (n ≤ 1 → becomes (.force l (.run r)) true) ∧
        (2 ≤ n → becomes (.force l (.delay (n - 1) r)) false)) ∧
      (∀ l, u.override.imposed = .force l (.run .indefinite) →
        becomes (.force l (.run .indefinite)) false) ∧
      (∀ l n, u.override.imposed = .force l (.run (.left n)) →
        (n ≤ 1 → becomes .none true) ∧ (2 ≤ n → becomes (.force l (.run (.left (n - 1)))) false)) ∧
      (∀ f n, u.override.imposed = .cycle f → f.run = .left n → n ≤ 1 → becomes .none true) ∧
      ∀ f run, u.override.imposed = .cycle f →
        (f.run = .indefinite ∧ run = .indefinite ∨
          ∃ n, 2 ≤ n ∧ f.run = .left n ∧ run = .left (n - 1)) →
        (2 ≤ f.portionLeft → becomes (.cycle { f with run := run, portionLeft := f.portionLeft - 1 }) false) ∧
        (f.portionLeft ≤ 1 → f.portion = .off →
          becomes (.cycle { f with run := run, portion := .on, portionLeft := f.on }) true) ∧
        (f.portionLeft ≤ 1 → f.portion = .on →
          (f.finish = true → becomes .none true) ∧
          (f.finish = false → f.staged = none →
            becomes (.cycle { f with run := run, portion := .off, portionLeft := f.off }) true) ∧
          ∀ g, f.finish = false → f.staged = some g →
            becomes (.cycle { f with off := g.off, on := g.on, portion := .off, portionLeft := g.off,
                                     run := if g.duration = 0 then .indefinite else .left (g.duration * 60),
                                     staged := none }) true)

/-- R124, R141, R142 and R161: the requested level of a channel, by its used flag, its channel state, and
in NORMAL the combination of its override with its band. -/
def Obligations.RequestedLevelCombines : Prop :=
  ∀ (cc : ChannelConfig) (u : ChannelUnit),
    let action := match u.band with
      | some b => b.action
      | none => cc.safe
    let critical := ∃ b, u.band = some b ∧ b.cls = .critical
    (cc.used = false → u.requested cc = .off) ∧
    (cc.used = true → u.state ≠ .normal → u.requested cc = cc.safe) ∧
    (cc.used = true → u.state = .normal →
      (u.override.imposed = .none → u.requested cc = action) ∧
      (∀ l n r, u.override.imposed = .force l (.delay n r) → u.requested cc = action) ∧
      (∀ r, u.override.imposed = .force .off (.run r) → u.requested cc = .off) ∧
      (∀ r, u.override.imposed = .force .on (.run r) →
        (critical → u.requested cc = action) ∧ (¬ critical → u.requested cc = .on)) ∧
      ∀ f, u.override.imposed = .cycle f →
        (action = .off → u.requested cc = .off) ∧ (action = .on → u.requested cc = f.portion))

/-! ## Fallback and return (chapter 8) -/

/-- R157 to R161: what a change of a station condition does at a channel. A condition outside the mask, or
an unused channel, takes no action. One that becomes active puts the channel into FALLBACK_HOLD with its
safe level handed, unless it is there; the last one to clear lets it go, to RELEASE_WAIT by its flag, and
else to RETURN_WAIT with base·60 + floor(spread·60·slot/256) seconds, whose first decrease is not at the
tick that set them (log entry 28), or with 0 of them to NORMAL at once. The override record is never
touched. -/
def Obligations.ConditionsActOnAChannel : Prop :=
  ∀ (cc : ChannelConfig) (slot : Nat) (active : Conditions) (k : Condition) (u : ChannelUnit),
    let done := (Work.idle u).stationCondition cc slot active k
    let seconds := cc.returnBase * 60 + cc.returnSpread * 60 * slot / 256
    let anyActive := u.forced = true ∨ ∃ j, active.get j = true ∧ cc.mask.get j = true
    done.unit.override = u.override ∧ done.unit.input = u.input ∧ done.unit.forced = u.forced ∧
    done.applied = 0 ∧ done.refused = 0 ∧
    (cc.used = false ∨ cc.mask.get k = false → done = Work.idle u) ∧
    (cc.used = true → cc.mask.get k = true →
      (active.get k = true → u.state = .fallbackHold → done = Work.idle u) ∧
      (active.get k = true → u.state ≠ .fallbackHold → done.unit.state = .fallbackHold ∧
        done.unit.handed = some cc.safe ∧ done.changed = true ∧
        (u.holdsOutput cc = false → done.unit.output = cc.safe ∧ done.unit.deferred = none) ∧
        (u.holdsOutput cc = true → done.unit.output = u.output)) ∧
      (active.get k = false → u.state ≠ .fallbackHold ∨ anyActive → done = Work.idle u) ∧
      (active.get k = false → u.state = .fallbackHold → ¬ anyActive → done.changed = true ∧
        (cc.noAutoReturn = true → done.unit = { u with state := .releaseWait }) ∧
        (cc.noAutoReturn = false → 0 < seconds → 
          done.unit = { u with state := .returnWait seconds, returnSet := true }) ∧
        (cc.noAutoReturn = false → seconds = 0 → done.unit.state = .normal ∧
          (u.handed ≠ none → done.unit.handed = some (done.unit.requested cc)))))

/-- R155, R156 and R158 to R160, R162: FORCE SAFE and RELEASE at a channel they name. A superseded FORCE SAFE
is refused; an applied one writes FORCED and its setter, and a change of FORCED acts as an effective
condition does: set, it puts the channel into FALLBACK_HOLD with its safe level handed, and cleared with no
condition of the mask active it lets the channel go to RELEASE_WAIT, RETURN_WAIT (whose first decrease is not
at the tick that set it: log entry 28) or NORMAL. RELEASE lets a waiting channel into NORMAL, is refused in FALLBACK_HOLD and ignored in
NORMAL. Neither touches the override record, and an unused channel is passed over. -/
def Obligations.ForceSafeAndRelease : Prop :=
  ∀ (cc : ChannelConfig) (slot : Nat) (active : Conditions) (origin : Byte) (serial : Word) (u : ChannelUnit),
    let forced (on : Bool) : Work := (Work.idle u).forceSafe cc slot active origin serial on
    let released : Work := (Work.idle u).release cc
    let seconds := cc.returnBase * 60 + cc.returnSpread * 60 * slot / 256
    let superseded := ∃ o n, u.setter = some (o, n) ∧ o = origin ∧ newer n serial = true
    (cc.used = false → (∀ on, forced on = Work.idle u) ∧ released = Work.idle u) ∧
    (cc.used = true → superseded → ∀ on, forced on = ⟨u, false, 0, 1⟩) ∧
    (cc.used = true → ¬ superseded → ∀ on,
      (forced on).unit.forced = on ∧ (forced on).unit.setter = some (origin, serial) ∧
      (forced on).unit.override = u.override ∧ (forced on).applied = 1 ∧ (forced on).refused = 0 ∧
      (u.forced = on → forced on = ⟨{ u with setter := some (origin, serial) }, false, 1, 0⟩) ∧
      (u.forced ≠ on → (forced on).changed = true) ∧
      let v : ChannelUnit := { u with forced := on, setter := some (origin, serial) }
      (u.forced = false → on = true →
        (u.state = .fallbackHold → (forced on).unit = v) ∧
        (u.state ≠ .fallbackHold → (forced on).unit.state = .fallbackHold ∧
          (forced on).unit.handed = some cc.safe ∧
          (u.holdsOutput cc = false → (forced on).unit.output = cc.safe ∧ (forced on).unit.deferred = none) ∧
          (u.holdsOutput cc = true → (forced on).unit.output = u.output))) ∧
      (u.forced = true → on = false →
        (u.state ≠ .fallbackHold ∨ (∃ j, active.get j = true ∧ cc.mask.get j = true) → (forced on).unit = v) ∧
        (u.state = .fallbackHold → (∀ j, active.get j = true → cc.mask.get j = false) →
          (cc.noAutoReturn = true → (forced on).unit = { v with state := .releaseWait }) ∧
          (cc.noAutoReturn = false → 0 < seconds →
            (forced on).unit = { v with state := .returnWait seconds, returnSet := true }) ∧
          (cc.noAutoReturn = false → seconds = 0 → (forced on).unit.state = .normal ∧
            (u.handed ≠ none → (forced on).unit.handed = some ((forced on).unit.requested cc)))))) ∧
    (cc.used = true →
      ((∃ n, u.state = .returnWait n) ∨ u.state = .releaseWait → released.unit.state = .normal ∧
        released.changed = true ∧ released.applied = 1 ∧ released.refused = 0 ∧
        released.unit.override = u.override ∧
        (u.handed ≠ none → released.unit.handed = some (released.unit.requested cc))) ∧
      (u.state = .fallbackHold → released = ⟨u, false, 0, 1⟩) ∧ (u.state = .normal → released = Work.idle u))

/-- R150, R151, R154 and R160: the silence countdown, the step hold and a channel's return countdown at an
elapsed second. Each falls by one while it is above 0, the last two not at the tick at which they were set
(log entry 28); their ends raise SILENCE, clear TIME_STEP and let the channel into NORMAL. A changed
condition is handed to every controller (ConditionsActOnAChannel says what each then does). Each command is
its countdown's whole step (log entry 2). -/
def Obligations.FallbackCountdownsRunDown : Prop :=
  ∀ (s : State) (cfg : Configuration), s.runsWith cfg →
    let changes (k : Condition) (x : Bool) (before : Monitor) (t : State) : Prop :=
      let active := s.monitor.conditions.set k x
      t.monitor = { before with conditions := active } ∧ t.status = { s.status with changePending := true } ∧
      (∀ c, t.channels.get c = ((Work.idle (s.channels.get c)).stationCondition (cfg.channel c) cfg.stagger
        active k).unit) ∧
      s.keepsAllBut [.channels, .monitor, .status] t
    (∀ n, s.monitor.silence = some n → 2 ≤ n → exec .silenceExpiry s =
      .next (s.setMonitor { s.monitor with silence := some (n - 1) })) ∧
    (s.monitor.silence = some 1 → s.monitor.conditions.silence = false → ∃ t, exec .silenceExpiry s = .next t ∧
      changes .silence true { s.monitor with silence := some 0 } t) ∧
    (s.monitor.silence = none ∨ s.monitor.silence = some 0 → exec .silenceExpiry s = .next s) ∧
    (2 ≤ s.monitor.stepHold → s.monitor.stepHoldSet = false → exec .stepHoldExpiry s =
      .next (s.setMonitor { s.monitor with stepHold := s.monitor.stepHold - 1 })) ∧
    (s.monitor.stepHold = 1 → s.monitor.stepHoldSet = false → s.monitor.conditions.timeStep = true →
      ∃ t, exec .stepHoldExpiry s = .next t ∧
      changes .timeStep false { s.monitor with stepHold := 0 } t) ∧
    (s.monitor.stepHold = 0 ∨ s.monitor.stepHoldSet = true → exec .stepHoldExpiry s = .next s) ∧
    ∀ c, let u := s.channels.get c
      (∀ n, u.state = .returnWait n → u.returnSet = false → ∃ t, exec (.returnCountdownExpiry c) s = .next t ∧
        (∀ d, d ≠ c → t.channels.get d = s.channels.get d) ∧ s.keepsAllBut [.channels, .status] t ∧
        (2 ≤ n → t.channels.get c = { u with state := .returnWait (n - 1) } ∧ t.status = s.status) ∧
        (n ≤ 1 → (t.channels.get c).state = .normal ∧ (t.channels.get c).override = u.override ∧
          t.status.changePending = true ∧ (u.handed ≠ none →
            (t.channels.get c).handed = some ((t.channels.get c).requested (cfg.channel c))))) ∧
      ((∀ n, u.state ≠ .returnWait n) ∨ u.returnSet = true → exec (.returnCountdownExpiry c) s = .next s)

/-- R152 and R153: the mains measurement. A crossing closes a cycle, inside the band from 47.5 to 52.5 Hz
inclusive, or opens one after a span without a crossing; each 100 ms without a crossing is an outside
cycle; a change of the classification notes its tick. MAINS_FREQ is raised when the classification has
been OUTSIDE for 500 ticks and cleared when it has been INSIDE for 3000 (crossings are held in crystal
periods, 81,920 to the tick: log entry 12). -/
def Obligations.MainsFrequencyIsQualified : Prop :=
  ∀ (s : State) (cfg : Configuration), s.runsWith cfg →
    let m := s.monitor.mains
    let classed (cls : MainsClass) : MainsClass × Nat :=
      (cls, if m.cls = cls then m.changedAt else s.elapsed)
    (∀ phase, phase < 81920 → m.lastCrossing < s.elapsed * 81920 + phase →
      let at_ := s.elapsed * 81920 + phase
      let hertz : Rat := 8192000 / ((at_ - m.lastCrossing : Nat) : Rat)
      ∃ t, exec (.mainsCrossing phase) s = .next t ∧ s.keepsAllBut [.monitor] t ∧
        t.monitor = { s.monitor with mains := t.monitor.mains } ∧
        t.monitor.mains.lastCrossing = at_ ∧ t.monitor.mains.spans = 0 ∧
        (m.spans = 0 → (t.monitor.mains.cls, t.monitor.mains.changedAt) =
          classed (if 47.5 ≤ hertz ∧ hertz ≤ 52.5 then .inside else .outside)) ∧
        (m.spans ≠ 0 → (t.monitor.mains.cls, t.monitor.mains.changedAt) = (m.cls, m.changedAt))) ∧
    (m.lastCrossing / 81920 + 10 * (m.spans + 1) ≤ s.elapsed →
      ∃ t, exec .mainsNoCrossing s = .next t ∧ s.keepsAllBut [.monitor] t ∧
        t.monitor = { s.monitor with mains := ⟨.outside, (classed .outside).2, m.lastCrossing, m.spans + 1⟩ }) ∧
    (s.elapsed < m.lastCrossing / 81920 + 10 * (m.spans + 1) → exec .mainsNoCrossing s = .next s) ∧
    (∀ cmd cls ticks x, (cmd = .mainsFreqRaise ∧ cls = .outside ∧ ticks = 500 ∧ x = true) ∨
        (cmd = .mainsFreqClear ∧ cls = .inside ∧ ticks = 3000 ∧ x = false) →
      (m.cls = cls → m.changedAt + ticks ≤ s.elapsed → ∃ t, exec cmd s = .next t ∧
        t.monitor = { s.monitor with conditions := { s.monitor.conditions with mainsFreq := x } } ∧
        s.keepsAllBut [.channels, .monitor, .status] t ∧
        (s.monitor.conditions.mainsFreq = x → t = s) ∧
        (s.monitor.conditions.mainsFreq ≠ x → t.status = { s.status with changePending := true } ∧
          ∀ c, t.channels.get c = ((Work.idle (s.channels.get c)).stationCondition (cfg.channel c)
            cfg.stagger t.monitor.conditions .mainsFreq).unit)) ∧
      (m.cls ≠ cls ∨ s.elapsed < m.changedAt + ticks → exec cmd s = .next s))

/-! ## Outputs and local inputs (chapter 9) -/

/-- R173 and R174: an output under a request and under an entry into FALLBACK_HOLD. A request for the
level held cancels a deferred one; another is taken at once when the dwell is over and the input does not
hold, and deferred otherwise; an entry does not wait for the dwell. A change of output is reported and
sets the dwell, which takes no decrease at the tick that set it (R172; log entry 28). -/
def Obligations.OutputsTakeRequests : Prop :=
  ∀ (cc : ChannelConfig) (l : Level) (u : ChannelUnit),
    let driven (w : Work) (l : Level) : Prop :=
      w = ⟨{ u with output := l, deferred := none, dwell := 100 * cc.minDwell, dwellSet := true },
        true, 0, 0⟩
    let requested := (Work.idle u).request cc l
    let entered := (Work.idle u).fallbackEntry cc
    (l = u.output → requested = ⟨{ u with deferred := none }, false, 0, 0⟩) ∧
    (l ≠ u.output → u.dwell = 0 → u.holdsOutput cc = false → driven requested l) ∧
    (l ≠ u.output → 0 < u.dwell ∨ u.holdsOutput cc = true →
      requested = ⟨{ u with deferred := some l }, false, 0, 0⟩) ∧
    (u.holdsOutput cc = false → cc.safe ≠ u.output → driven entered cc.safe) ∧
    (cc.safe = u.output → entered = ⟨{ u with deferred := none }, false, 0, 0⟩) ∧
    (u.holdsOutput cc = true → cc.safe ≠ u.output →
      entered = ⟨{ u with deferred := some cc.safe }, false, 0, 0⟩) ∧
    (u.holdsOutput cc = true ↔ cc.used = true ∧ cc.input = .hold ∧ u.input.qualification = .asserted)

/-- R172, R175 to R177 and R140: a channel's dwell and local input. The dwell falls by one at a tick after
the one that set it (log entry 28; DWELL_END is its whole step at a tick: log entry 2); at its end, and at
a qualified release with the dwell over, a deferred request is taken unless the input holds the output. A
sample that does not qualify only counts; a first qualification is no press; a qualified assertion on a
BOOST input starts a boost in NORMAL with no override, ends a boost that runs, and is otherwise ignored.
That it starts one after an order taken first in the same instant has left the record NONE is log entry 31's
choice. Which command carries the fifth equal sample is log entry 32's. An input of an unused channel, or of function NONE, is not sampled (R178), and no command reaches it
(log entry 3). -/
def Obligations.DwellsAndLocalInputs : Prop :=
  ∀ (s : State) (cfg : Configuration) (c : Channel), s.runsWith cfg →
    let cc := cfg.channel c
    let u := s.channels.get c
    let onlyHere (t : State) : Prop := (∀ d, d ≠ c → t.channels.get d = s.channels.get d) ∧
      s.keepsAllBut [.channels, .status] t
    let quiet (cmd : Instr) (v : ChannelUnit) : Prop := ∃ t, exec cmd s = .next t ∧ onlyHere t ∧
      t.channels.get c = v ∧ t.status = s.status
    let taken (cmd : Instr) (v : ChannelUnit) (l : Level) : Prop := ∃ t, exec cmd s = .next t ∧ onlyHere t ∧
      t.channels.get c =
        { v with output := l, deferred := none, dwell := 100 * cc.minDwell, dwellSet := true } ∧
      t.status = { s.status with changePending := true }
    let sampled (x : Contact) : Nat := if x = u.input.candidate then min 5 (u.input.stable + 1) else 1
    let qualified (q : Qualification) (x : Contact) : ChannelUnit := { u with input := ⟨q, x, 5⟩ }
    let read := cc.used = true ∧ cc.input ≠ .none
    (¬ read → exec (.qualifiedAssertion c) s = .next s ∧ exec (.qualifiedRelease c) s = .next s ∧
      ∀ x, exec (.localInputSample c x) s = .next s ∧ exec (.firstQualification c x) s = .next s) ∧
    (u.dwell = 0 ∨ u.dwellSet = true → exec (.dwellEnd c) s = .next s) ∧
    (2 ≤ u.dwell → u.dwellSet = false → quiet (.dwellEnd c) { u with dwell := u.dwell - 1 }) ∧
    (u.dwell = 1 → u.dwellSet = false → u.deferred = none ∨ u.holdsOutput cc = true →
      quiet (.dwellEnd c) { u with dwell := 0 }) ∧
    (∀ l, u.dwell = 1 → u.dwellSet = false → u.deferred = some l → u.holdsOutput cc = false →
      taken (.dwellEnd c) u l) ∧
    (∀ x q, read → (x = .asserted ∧ q = .asserted ∨ x = .released ∧ q = .released) →
      (sampled x < 5 ∨ u.input.qualification = q →
        quiet (.localInputSample c x) { u with input := ⟨u.input.qualification, x, sampled x⟩ }) ∧
      (sampled x = 5 → u.input.qualification = .unknown →
        quiet (.firstQualification c x) (qualified q x))) ∧
    (read → sampled .released = 5 → u.input.qualification = .asserted →
      (cc.input = .boost ∨ u.deferred = none ∨ 0 < u.dwell →
        quiet (.qualifiedRelease c) (qualified .released .released)) ∧
      ∀ l, cc.input = .hold → u.deferred = some l → u.dwell = 0 →
        taken (.qualifiedRelease c) (qualified .released .released) l) ∧
    (read → sampled .asserted = 5 → u.input.qualification = .released →
      (cc.input = .hold → quiet (.qualifiedAssertion c) (qualified .asserted .asserted)) ∧
      (cc.input = .boost → ∃ t, exec (.qualifiedAssertion c) s = .next t ∧ onlyHere t ∧
        (t.channels.get c).input = ⟨.asserted, .asserted, 5⟩ ∧ (t.channels.get c).state = u.state ∧
        let boosting := (∃ phase, u.override.imposed = .force .on phase) ∧ u.override.source = some .boost
        let starts := u.override.imposed = .none ∧ u.state = .normal
        (boosting → (t.channels.get c).override = ⟨.none, some .boost⟩) ∧
        (starts → (t.channels.get c).override =
          ⟨.force .on (.run (.left (cfg.boostLength * 60))), some .boost⟩) ∧
        (boosting ∨ starts → t.status.changePending = true ∧ (u.handed ≠ none →
          (t.channels.get c).handed = some ((t.channels.get c).requested cc))) ∧
        (¬ boosting → ¬ starts → t.channels.get c = qualified .asserted .asserted ∧ t.status = s.status)))

/-! ## Status reporting (chapters 11 and 12) -/

/-- R199: at a second's end the periodic countdown falls by one; a record is due when change pending is
set or the countdown is 0, and on an idle line it is formed and started, with change pending cleared and
the countdown at 60. While LOADING no record is formed, and a record is dropped once its last character
has left the line, 58.3 ms after its start, at the first tick boundary from then on (log entry 24). -/
def Obligations.RecordsAreEmittedWhenDue : Prop :=
  ∀ s : State, s.running = true →
    (s.loader.load = .loading → exec .statusSecondEnd s = .next s) ∧
    (s.loader.load ≠ .loading →
      let due := s.status.changePending = true ∨ s.status.periodic ≤ 1
      (due → s.status.emission = none → exec .statusSecondEnd s =
        .next (s.setStatus ⟨some ⟨statusRecord s, s.elapsed⟩, false, 60⟩)) ∧
      (¬ due ∨ s.status.emission ≠ none → exec .statusSecondEnd s =
        .next (s.setStatus { s.status with periodic := s.status.periodic - 1 }))) ∧
    ∀ e, s.status.emission = some e →
      (e.startedAt + 6 ≤ s.elapsed →
        exec .emissionEnd s = .next (s.setStatus { s.status with emission := none })) ∧
      (s.elapsed < e.startedAt + 6 → exec .emissionEnd s = .next s)

/-- R196, R200 and R204: the status record. It is 56 bytes that begin with 0xA5 and 52 and end with the
check over bytes 1 to 53, 560 bits on the line; and each field is what the part holds, or what UNCONFIGURED
shows, with every bit that section 12.8 gives as zero 0. On the line STX is not driven while the part is stopped, and stands high while LOADING and whenever
no record is sent; a record's bytes follow one another from the tick at which it started, 96 bit times to a
tick, each as a low start bit, its eight bits from the least significant, and a high stop bit. -/
def Obligations.StatusRecordShowsThePart : Prop :=
  ∀ s : State,
    let r := statusRecord s
    let at_ (i : Nat) : Nat := (byteAt r i).toNat
    r.length = 56 ∧ at_ 0 = 0xA5 ∧ at_ 1 = 52 ∧ crc16 ((r.drop 1).take 53) = wordAt r 54 ∧
    (serialBits r).length = 560 ∧
    (∀ k, s.running = false → s.stxLevel k = none) ∧
    (∀ k, s.running = true → s.loader.load = .loading ∨ s.status.emission = none →
      s.stxLevel k = some true) ∧
    (∀ e k, s.running = true → s.loader.load ≠ .loading → s.status.emission = some e →
      let place := 96 * (s.elapsed - e.startedAt) + k
      (∀ i, i < e.record.length →
        (place = 10 * i → s.stxLevel k = some false) ∧
        (∀ j, j < 8 → place = 10 * i + 1 + j → s.stxLevel k = some ((byteAt e.record i).getLsbD j)) ∧
        (place = 10 * i + 9 → s.stxLevel k = some true)) ∧
      (10 * e.record.length ≤ place → s.stxLevel k = some true)) ∧
    [TimeState.unset, .synced, .holdover, .lost].map (·.code) = [0, 1, 2, 3] ∧
    [DayClass.workday, .saturday, .sundayHoliday, .special].map (·.code) = [0, 1, 2, 3] ∧
    (∀ n, [ChannelState.normal, .fallbackHold, .returnWait n, .releaseWait].map (·.code) = [0, 1, 2, 3]) ∧
    (∀ p q f, [Imposed.none, .force .on p, .force .off q, .cycle f].map (·.kind) = [0, 1, 2, 3]) ∧
    (∀ l n r f, [Imposed.none, .force l (.delay n r), .force l (.run r), .cycle f].map (·.phase) =
      [0, 1, 2, 2]) ∧
    at_ 4 = s.time.state.code + 16 * s.time.today.code ∧ wordAt r 5 = s.time.clock.day ∧
    (s.time.clock.tick < 8640000 → 65536 * at_ 7 + 256 * at_ 8 + at_ 9 = s.time.clock.tick / 100) ∧
    (∀ p, s.programs.active = some p → wordAt r 10 = p.id) ∧ (s.programs.active = none → wordAt r 10 = 0) ∧
    (∀ p, s.programs.next = some p → wordAt r 12 = p.id) ∧ (s.programs.next = none → wordAt r 12 = 0) ∧
    at_ 2 < 8 ∧ (at_ 2 / 2 % 2 = 1 ↔ s.programs.active ≠ none) ∧ (at_ 2 / 4 = 1 ↔ s.programs.next ≠ none) ∧
    (∀ cfg, s.loader.load = .configured cfg →
      at_ 2 % 2 = 1 ∧ at_ 14 < 32 ∧ at_ 15 < 64 ∧ (s.register ≤ 8 → at_ 3 = s.register) ∧
      (∀ k i, (k, i) ∈ [(Condition.timeInvalid, 0), (.noProgram, 1), (.silence, 2), (.mainsFreq, 3),
        (.timeStep, 4)] → (at_ 14 / 2 ^ i % 2 = 1 ↔ s.monitor.conditions.get k = true)) ∧
      (∀ c, at_ 15 / 2 ^ channelPlace c % 2 = 1 ↔ (s.channels.get c).forced = true) ∧
      (∀ c, (cfg.channel c).used = true →
        let u := s.channels.get c
        at_ (16 + channelPlace c) = (if u.output = .on then 1 else 0) + 2 * u.state.code +
          8 * u.override.imposed.kind + 32 * u.override.imposed.phase) ∧
      (∀ c, (cfg.channel c).used = false → at_ (16 + channelPlace c) = 0) ∧
      ∀ i n, s.counters.list[i]? = some n → n ≤ 65535 → (wordAt r (22 + 2 * i)).toNat = n) ∧
    (s.loader.load = .unconfigured → at_ 2 % 2 = 0 ∧ at_ 3 = 1 ∧ at_ 14 = 0 ∧ at_ 15 = 0 ∧
      (∀ c, at_ (16 + channelPlace c) = 2) ∧ ∀ i, i < 16 → wordAt r (22 + 2 * i) = 0)

/-! ## What every step keeps -/

/-- R63, R80 and R201: every step keeps the clock within a day, the slew remaining within the step
threshold, and every counter within 16 bits; and no counter falls but at a restart. -/
def Obligations.ClockAndCountersStayInRange : Prop :=
  (∀ s t : State, (s.clockSound ∧ ∀ n ∈ s.counters.list, n ≤ 65535) → step s = .next t →
    t.clockSound ∧ ∀ n ∈ t.counters.list, n ≤ 65535) ∧
  ∀ (i : Instr) (s t : State), i ≠ .coldRestart → i ≠ .warmRestart → exec i s = .next t →
    List.Forall₂ (· ≤ ·) s.counters.list t.counters.list

/-- R88, R94, R103, R104, R114, R115 and R180: every step keeps the configuration values and the programs
clamped, the pending program newer than the active one, the register index in 1 to 8 and the index that
was handed, and 24 window slots whose windows end after they start. -/
def Obligations.ProgramsWindowsAndIndexStaySound : Prop :=
  ∀ s t : State, s.indexSound ∧ s.windowsSound → step s = .next t → t.indexSound ∧ t.windowsSound

/-- R21, R29, R39, R42, R45 to R47 and R54: every step keeps at most four origins, each once, with serial
windows of distances 1 to 32 in rising order; and 64 places with no key twice, whose echo counts stop at
15 and stay below the suppression threshold while PENDING, and whose stored copies have their entry's key
and a budget of at least 1. -/
def Obligations.TablesStaySound : Prop :=
  (∀ s t : State, s.originsSound → step s = .next t → t.originsSound) ∧
  ∀ s t : State, s.heardSound → step s = .next t → t.heardSound

/-- R1, R2, R9, R10, R12, R13, R40, R50 to R53 and R56: every step keeps the receiver, the slot, the
indication, the access state and the SENDING entry in agreement. -/
def Obligations.LineStaysInStep : Prop :=
  ∀ s t : State, s.lineSound → step s = .next t → t.lineSound

/-- R130, R132 to R135, R160, R172 and R175: every step keeps each channel's countdowns and counts, and
the loaded values that set them, within their ranges. -/
def Obligations.CountdownsStayInRange : Prop :=
  ∀ s t : State, s.countdownsSound → step s = .next t → t.countdownsSound

/-- R147 to R151: every step keeps the station conditions in agreement with what they name, and keeps them
all inactive, with no countdown running, while the part has no configuration values. -/
def Obligations.ConditionsShowTheirCauses : Prop :=
  ∀ s t : State, s.conditionsSound → step s = .next t → t.conditionsSound

/-- R143, R157 to R161, R163, R165 and R172 to R174: every step keeps each channel settled: the level last
handed is its requested level and its output's current request, a deferred request differs from the
output, a used channel is in FALLBACK_HOLD just while an effective condition is active, and an unused one
is NORMAL and OFF. -/
def Obligations.ChannelsStaySettled : Prop :=
  ∀ s t : State, s.channelsSound → step s = .next t → t.channelsSound

/-- What every step keeps holds right after a cold restart. -/
def Obligations.ResetIsSound : Prop :=
  let s := State.reset
  s.clockSound ∧ (∀ n ∈ s.counters.list, n ≤ 65535) ∧ s.indexSound ∧ s.windowsSound ∧ s.originsSound ∧
  s.heardSound ∧ s.lineSound ∧ s.countdownsSound ∧ s.conditionsSound ∧ s.channelsSound ∧
  s.loadingSound

/-- R192, with R1, R8, R23, R69, R89, R102, R122, R147 and R178: while the part runs UNCONFIGURED, no command
but a restart and the supply's own events reaches anything but the clock, the Status Port, and on the line the
noise estimate with the ticks by which a clean tick is told (log entry 9); the clock advances, and the time
state and the countdowns stand. -/
def Obligations.UnconfiguredPartRests : Prop :=
  ∀ (i : Instr) (s t : State), s.running = true → s.loader.load = .unconfigured →
    i ∉ [.coldRestart, .warmRestart, .supplyFailure, .nresetAsserted, .vholdLoss] → exec i s = .next t →
    s.keepsAllBut [.time, .status, .line] t ∧
    t.line = { s.line with
      noise := t.line.noise, cleanFrom := t.line.cleanFrom, carrierAt := t.line.carrierAt } ∧
    ((∀ level, i ≠ .cleanTick level) → t.line.noise = s.line.noise) ∧
    ((∀ level, i ≠ .cleanTick level) → i ≠ .carrierAppears → t.line = s.line) ∧
    t.time.state = s.time.state ∧ t.time.hold = s.time.hold ∧
    t.time.lost = s.time.lost ∧ (i ≠ .clockAdvance → t.time = s.time) ∧
    (t.status.changePending = true → s.status.changePending = true)
end

