-- ==== Sys2Proof/Laws/State.lean ====
section
/-! SUPPORT. What each update of the state leaves in each field, true by definition and used by `simp`,
so that no proof unfolds a record update. -/

namespace Sys2Proof.Machine

/-! ## One field written -/

section
variable (s : State)

section
variable (x : List Instr)
@[simp] theorem State.setPending_pending : (s.setPending x).pending = x := rfl
@[simp] theorem State.setPending_meetings : (s.setPending x).meetings = s.meetings := rfl
@[simp] theorem State.setPending_power : (s.setPending x).power = s.power := rfl
@[simp] theorem State.setPending_elapsed : (s.setPending x).elapsed = s.elapsed := rfl
@[simp] theorem State.setPending_line : (s.setPending x).line = s.line := rfl
@[simp] theorem State.setPending_origins : (s.setPending x).origins = s.origins := rfl
@[simp] theorem State.setPending_relay : (s.setPending x).relay = s.relay := rfl
@[simp] theorem State.setPending_time : (s.setPending x).time = s.time := rfl
@[simp] theorem State.setPending_programs : (s.setPending x).programs = s.programs := rfl
@[simp] theorem State.setPending_resolver : (s.setPending x).resolver = s.resolver := rfl
@[simp] theorem State.setPending_channels : (s.setPending x).channels = s.channels := rfl
@[simp] theorem State.setPending_register : (s.setPending x).register = s.register := rfl
@[simp] theorem State.setPending_monitor : (s.setPending x).monitor = s.monitor := rfl
@[simp] theorem State.setPending_loader : (s.setPending x).loader = s.loader := rfl
@[simp] theorem State.setPending_status : (s.setPending x).status = s.status := rfl
@[simp] theorem State.setPending_counters : (s.setPending x).counters = s.counters := rfl
end

section
variable (x : List Nat)
@[simp] theorem State.setMeetings_pending : (s.setMeetings x).pending = s.pending := rfl
@[simp] theorem State.setMeetings_meetings : (s.setMeetings x).meetings = x := rfl
@[simp] theorem State.setMeetings_power : (s.setMeetings x).power = s.power := rfl
@[simp] theorem State.setMeetings_elapsed : (s.setMeetings x).elapsed = s.elapsed := rfl
@[simp] theorem State.setMeetings_line : (s.setMeetings x).line = s.line := rfl
@[simp] theorem State.setMeetings_origins : (s.setMeetings x).origins = s.origins := rfl
@[simp] theorem State.setMeetings_relay : (s.setMeetings x).relay = s.relay := rfl
@[simp] theorem State.setMeetings_time : (s.setMeetings x).time = s.time := rfl
@[simp] theorem State.setMeetings_programs : (s.setMeetings x).programs = s.programs := rfl
@[simp] theorem State.setMeetings_resolver : (s.setMeetings x).resolver = s.resolver := rfl
@[simp] theorem State.setMeetings_channels : (s.setMeetings x).channels = s.channels := rfl
@[simp] theorem State.setMeetings_register : (s.setMeetings x).register = s.register := rfl
@[simp] theorem State.setMeetings_monitor : (s.setMeetings x).monitor = s.monitor := rfl
@[simp] theorem State.setMeetings_loader : (s.setMeetings x).loader = s.loader := rfl
@[simp] theorem State.setMeetings_status : (s.setMeetings x).status = s.status := rfl
@[simp] theorem State.setMeetings_counters : (s.setMeetings x).counters = s.counters := rfl
end

section
variable (x : Power)
@[simp] theorem State.setPower_pending : (s.setPower x).pending = s.pending := rfl
@[simp] theorem State.setPower_meetings : (s.setPower x).meetings = s.meetings := rfl
@[simp] theorem State.setPower_power : (s.setPower x).power = x := rfl
@[simp] theorem State.setPower_elapsed : (s.setPower x).elapsed = s.elapsed := rfl
@[simp] theorem State.setPower_line : (s.setPower x).line = s.line := rfl
@[simp] theorem State.setPower_origins : (s.setPower x).origins = s.origins := rfl
@[simp] theorem State.setPower_relay : (s.setPower x).relay = s.relay := rfl
@[simp] theorem State.setPower_time : (s.setPower x).time = s.time := rfl
@[simp] theorem State.setPower_programs : (s.setPower x).programs = s.programs := rfl
@[simp] theorem State.setPower_resolver : (s.setPower x).resolver = s.resolver := rfl
@[simp] theorem State.setPower_channels : (s.setPower x).channels = s.channels := rfl
@[simp] theorem State.setPower_register : (s.setPower x).register = s.register := rfl
@[simp] theorem State.setPower_monitor : (s.setPower x).monitor = s.monitor := rfl
@[simp] theorem State.setPower_loader : (s.setPower x).loader = s.loader := rfl
@[simp] theorem State.setPower_status : (s.setPower x).status = s.status := rfl
@[simp] theorem State.setPower_counters : (s.setPower x).counters = s.counters := rfl
end

section
variable (x : Nat)
@[simp] theorem State.setElapsed_pending : (s.setElapsed x).pending = s.pending := rfl
@[simp] theorem State.setElapsed_meetings : (s.setElapsed x).meetings = s.meetings := rfl
@[simp] theorem State.setElapsed_power : (s.setElapsed x).power = s.power := rfl
@[simp] theorem State.setElapsed_elapsed : (s.setElapsed x).elapsed = x := rfl
@[simp] theorem State.setElapsed_line : (s.setElapsed x).line = s.line := rfl
@[simp] theorem State.setElapsed_origins : (s.setElapsed x).origins = s.origins := rfl
@[simp] theorem State.setElapsed_relay : (s.setElapsed x).relay = s.relay := rfl
@[simp] theorem State.setElapsed_time : (s.setElapsed x).time = s.time := rfl
@[simp] theorem State.setElapsed_programs : (s.setElapsed x).programs = s.programs := rfl
@[simp] theorem State.setElapsed_resolver : (s.setElapsed x).resolver = s.resolver := rfl
@[simp] theorem State.setElapsed_channels : (s.setElapsed x).channels = s.channels := rfl
@[simp] theorem State.setElapsed_register : (s.setElapsed x).register = s.register := rfl
@[simp] theorem State.setElapsed_monitor : (s.setElapsed x).monitor = s.monitor := rfl
@[simp] theorem State.setElapsed_loader : (s.setElapsed x).loader = s.loader := rfl
@[simp] theorem State.setElapsed_status : (s.setElapsed x).status = s.status := rfl
@[simp] theorem State.setElapsed_counters : (s.setElapsed x).counters = s.counters := rfl
end

section
variable (x : Line)
@[simp] theorem State.setLine_pending : (s.setLine x).pending = s.pending := rfl
@[simp] theorem State.setLine_meetings : (s.setLine x).meetings = s.meetings := rfl
@[simp] theorem State.setLine_power : (s.setLine x).power = s.power := rfl
@[simp] theorem State.setLine_elapsed : (s.setLine x).elapsed = s.elapsed := rfl
@[simp] theorem State.setLine_line : (s.setLine x).line = x := rfl
@[simp] theorem State.setLine_origins : (s.setLine x).origins = s.origins := rfl
@[simp] theorem State.setLine_relay : (s.setLine x).relay = s.relay := rfl
@[simp] theorem State.setLine_time : (s.setLine x).time = s.time := rfl
@[simp] theorem State.setLine_programs : (s.setLine x).programs = s.programs := rfl
@[simp] theorem State.setLine_resolver : (s.setLine x).resolver = s.resolver := rfl
@[simp] theorem State.setLine_channels : (s.setLine x).channels = s.channels := rfl
@[simp] theorem State.setLine_register : (s.setLine x).register = s.register := rfl
@[simp] theorem State.setLine_monitor : (s.setLine x).monitor = s.monitor := rfl
@[simp] theorem State.setLine_loader : (s.setLine x).loader = s.loader := rfl
@[simp] theorem State.setLine_status : (s.setLine x).status = s.status := rfl
@[simp] theorem State.setLine_counters : (s.setLine x).counters = s.counters := rfl
end

section
variable (x : OriginTable)
@[simp] theorem State.setOrigins_pending : (s.setOrigins x).pending = s.pending := rfl
@[simp] theorem State.setOrigins_meetings : (s.setOrigins x).meetings = s.meetings := rfl
@[simp] theorem State.setOrigins_power : (s.setOrigins x).power = s.power := rfl
@[simp] theorem State.setOrigins_elapsed : (s.setOrigins x).elapsed = s.elapsed := rfl
@[simp] theorem State.setOrigins_line : (s.setOrigins x).line = s.line := rfl
@[simp] theorem State.setOrigins_origins : (s.setOrigins x).origins = x := rfl
@[simp] theorem State.setOrigins_relay : (s.setOrigins x).relay = s.relay := rfl
@[simp] theorem State.setOrigins_time : (s.setOrigins x).time = s.time := rfl
@[simp] theorem State.setOrigins_programs : (s.setOrigins x).programs = s.programs := rfl
@[simp] theorem State.setOrigins_resolver : (s.setOrigins x).resolver = s.resolver := rfl
@[simp] theorem State.setOrigins_channels : (s.setOrigins x).channels = s.channels := rfl
@[simp] theorem State.setOrigins_register : (s.setOrigins x).register = s.register := rfl
@[simp] theorem State.setOrigins_monitor : (s.setOrigins x).monitor = s.monitor := rfl
@[simp] theorem State.setOrigins_loader : (s.setOrigins x).loader = s.loader := rfl
@[simp] theorem State.setOrigins_status : (s.setOrigins x).status = s.status := rfl
@[simp] theorem State.setOrigins_counters : (s.setOrigins x).counters = s.counters := rfl
end

section
variable (x : Relay)
@[simp] theorem State.setRelay_pending : (s.setRelay x).pending = s.pending := rfl
@[simp] theorem State.setRelay_meetings : (s.setRelay x).meetings = s.meetings := rfl
@[simp] theorem State.setRelay_power : (s.setRelay x).power = s.power := rfl
@[simp] theorem State.setRelay_elapsed : (s.setRelay x).elapsed = s.elapsed := rfl
@[simp] theorem State.setRelay_line : (s.setRelay x).line = s.line := rfl
@[simp] theorem State.setRelay_origins : (s.setRelay x).origins = s.origins := rfl
@[simp] theorem State.setRelay_relay : (s.setRelay x).relay = x := rfl
@[simp] theorem State.setRelay_time : (s.setRelay x).time = s.time := rfl
@[simp] theorem State.setRelay_programs : (s.setRelay x).programs = s.programs := rfl
@[simp] theorem State.setRelay_resolver : (s.setRelay x).resolver = s.resolver := rfl
@[simp] theorem State.setRelay_channels : (s.setRelay x).channels = s.channels := rfl
@[simp] theorem State.setRelay_register : (s.setRelay x).register = s.register := rfl
@[simp] theorem State.setRelay_monitor : (s.setRelay x).monitor = s.monitor := rfl
@[simp] theorem State.setRelay_loader : (s.setRelay x).loader = s.loader := rfl
@[simp] theorem State.setRelay_status : (s.setRelay x).status = s.status := rfl
@[simp] theorem State.setRelay_counters : (s.setRelay x).counters = s.counters := rfl
end

section
variable (x : Timekeeper)
@[simp] theorem State.setTime_pending : (s.setTime x).pending = s.pending := rfl
@[simp] theorem State.setTime_meetings : (s.setTime x).meetings = s.meetings := rfl
@[simp] theorem State.setTime_power : (s.setTime x).power = s.power := rfl
@[simp] theorem State.setTime_elapsed : (s.setTime x).elapsed = s.elapsed := rfl
@[simp] theorem State.setTime_line : (s.setTime x).line = s.line := rfl
@[simp] theorem State.setTime_origins : (s.setTime x).origins = s.origins := rfl
@[simp] theorem State.setTime_relay : (s.setTime x).relay = s.relay := rfl
@[simp] theorem State.setTime_time : (s.setTime x).time = x := rfl
@[simp] theorem State.setTime_programs : (s.setTime x).programs = s.programs := rfl
@[simp] theorem State.setTime_resolver : (s.setTime x).resolver = s.resolver := rfl
@[simp] theorem State.setTime_channels : (s.setTime x).channels = s.channels := rfl
@[simp] theorem State.setTime_register : (s.setTime x).register = s.register := rfl
@[simp] theorem State.setTime_monitor : (s.setTime x).monitor = s.monitor := rfl
@[simp] theorem State.setTime_loader : (s.setTime x).loader = s.loader := rfl
@[simp] theorem State.setTime_status : (s.setTime x).status = s.status := rfl
@[simp] theorem State.setTime_counters : (s.setTime x).counters = s.counters := rfl
end

section
variable (x : Collector)
@[simp] theorem State.setPrograms_pending : (s.setPrograms x).pending = s.pending := rfl
@[simp] theorem State.setPrograms_meetings : (s.setPrograms x).meetings = s.meetings := rfl
@[simp] theorem State.setPrograms_power : (s.setPrograms x).power = s.power := rfl
@[simp] theorem State.setPrograms_elapsed : (s.setPrograms x).elapsed = s.elapsed := rfl
@[simp] theorem State.setPrograms_line : (s.setPrograms x).line = s.line := rfl
@[simp] theorem State.setPrograms_origins : (s.setPrograms x).origins = s.origins := rfl
@[simp] theorem State.setPrograms_relay : (s.setPrograms x).relay = s.relay := rfl
@[simp] theorem State.setPrograms_time : (s.setPrograms x).time = s.time := rfl
@[simp] theorem State.setPrograms_programs : (s.setPrograms x).programs = x := rfl
@[simp] theorem State.setPrograms_resolver : (s.setPrograms x).resolver = s.resolver := rfl
@[simp] theorem State.setPrograms_channels : (s.setPrograms x).channels = s.channels := rfl
@[simp] theorem State.setPrograms_register : (s.setPrograms x).register = s.register := rfl
@[simp] theorem State.setPrograms_monitor : (s.setPrograms x).monitor = s.monitor := rfl
@[simp] theorem State.setPrograms_loader : (s.setPrograms x).loader = s.loader := rfl
@[simp] theorem State.setPrograms_status : (s.setPrograms x).status = s.status := rfl
@[simp] theorem State.setPrograms_counters : (s.setPrograms x).counters = s.counters := rfl
end

section
variable (x : Resolver)
@[simp] theorem State.setResolver_pending : (s.setResolver x).pending = s.pending := rfl
@[simp] theorem State.setResolver_meetings : (s.setResolver x).meetings = s.meetings := rfl
@[simp] theorem State.setResolver_power : (s.setResolver x).power = s.power := rfl
@[simp] theorem State.setResolver_elapsed : (s.setResolver x).elapsed = s.elapsed := rfl
@[simp] theorem State.setResolver_line : (s.setResolver x).line = s.line := rfl
@[simp] theorem State.setResolver_origins : (s.setResolver x).origins = s.origins := rfl
@[simp] theorem State.setResolver_relay : (s.setResolver x).relay = s.relay := rfl
@[simp] theorem State.setResolver_time : (s.setResolver x).time = s.time := rfl
@[simp] theorem State.setResolver_programs : (s.setResolver x).programs = s.programs := rfl
@[simp] theorem State.setResolver_resolver : (s.setResolver x).resolver = x := rfl
@[simp] theorem State.setResolver_channels : (s.setResolver x).channels = s.channels := rfl
@[simp] theorem State.setResolver_register : (s.setResolver x).register = s.register := rfl
@[simp] theorem State.setResolver_monitor : (s.setResolver x).monitor = s.monitor := rfl
@[simp] theorem State.setResolver_loader : (s.setResolver x).loader = s.loader := rfl
@[simp] theorem State.setResolver_status : (s.setResolver x).status = s.status := rfl
@[simp] theorem State.setResolver_counters : (s.setResolver x).counters = s.counters := rfl
end

section
variable (x : Six ChannelUnit)
@[simp] theorem State.setChannels_pending : (s.setChannels x).pending = s.pending := rfl
@[simp] theorem State.setChannels_meetings : (s.setChannels x).meetings = s.meetings := rfl
@[simp] theorem State.setChannels_power : (s.setChannels x).power = s.power := rfl
@[simp] theorem State.setChannels_elapsed : (s.setChannels x).elapsed = s.elapsed := rfl
@[simp] theorem State.setChannels_line : (s.setChannels x).line = s.line := rfl
@[simp] theorem State.setChannels_origins : (s.setChannels x).origins = s.origins := rfl
@[simp] theorem State.setChannels_relay : (s.setChannels x).relay = s.relay := rfl
@[simp] theorem State.setChannels_time : (s.setChannels x).time = s.time := rfl
@[simp] theorem State.setChannels_programs : (s.setChannels x).programs = s.programs := rfl
@[simp] theorem State.setChannels_resolver : (s.setChannels x).resolver = s.resolver := rfl
@[simp] theorem State.setChannels_channels : (s.setChannels x).channels = x := rfl
@[simp] theorem State.setChannels_register : (s.setChannels x).register = s.register := rfl
@[simp] theorem State.setChannels_monitor : (s.setChannels x).monitor = s.monitor := rfl
@[simp] theorem State.setChannels_loader : (s.setChannels x).loader = s.loader := rfl
@[simp] theorem State.setChannels_status : (s.setChannels x).status = s.status := rfl
@[simp] theorem State.setChannels_counters : (s.setChannels x).counters = s.counters := rfl
end

section
variable (x : Nat)
@[simp] theorem State.setRegister_pending : (s.setRegister x).pending = s.pending := rfl
@[simp] theorem State.setRegister_meetings : (s.setRegister x).meetings = s.meetings := rfl
@[simp] theorem State.setRegister_power : (s.setRegister x).power = s.power := rfl
@[simp] theorem State.setRegister_elapsed : (s.setRegister x).elapsed = s.elapsed := rfl
@[simp] theorem State.setRegister_line : (s.setRegister x).line = s.line := rfl
@[simp] theorem State.setRegister_origins : (s.setRegister x).origins = s.origins := rfl
@[simp] theorem State.setRegister_relay : (s.setRegister x).relay = s.relay := rfl
@[simp] theorem State.setRegister_time : (s.setRegister x).time = s.time := rfl
@[simp] theorem State.setRegister_programs : (s.setRegister x).programs = s.programs := rfl
@[simp] theorem State.setRegister_resolver : (s.setRegister x).resolver = s.resolver := rfl
@[simp] theorem State.setRegister_channels : (s.setRegister x).channels = s.channels := rfl
@[simp] theorem State.setRegister_register : (s.setRegister x).register = x := rfl
@[simp] theorem State.setRegister_monitor : (s.setRegister x).monitor = s.monitor := rfl
@[simp] theorem State.setRegister_loader : (s.setRegister x).loader = s.loader := rfl
@[simp] theorem State.setRegister_status : (s.setRegister x).status = s.status := rfl
@[simp] theorem State.setRegister_counters : (s.setRegister x).counters = s.counters := rfl
end

section
variable (x : Monitor)
@[simp] theorem State.setMonitor_pending : (s.setMonitor x).pending = s.pending := rfl
@[simp] theorem State.setMonitor_meetings : (s.setMonitor x).meetings = s.meetings := rfl
@[simp] theorem State.setMonitor_power : (s.setMonitor x).power = s.power := rfl
@[simp] theorem State.setMonitor_elapsed : (s.setMonitor x).elapsed = s.elapsed := rfl
@[simp] theorem State.setMonitor_line : (s.setMonitor x).line = s.line := rfl
@[simp] theorem State.setMonitor_origins : (s.setMonitor x).origins = s.origins := rfl
@[simp] theorem State.setMonitor_relay : (s.setMonitor x).relay = s.relay := rfl
@[simp] theorem State.setMonitor_time : (s.setMonitor x).time = s.time := rfl
@[simp] theorem State.setMonitor_programs : (s.setMonitor x).programs = s.programs := rfl
@[simp] theorem State.setMonitor_resolver : (s.setMonitor x).resolver = s.resolver := rfl
@[simp] theorem State.setMonitor_channels : (s.setMonitor x).channels = s.channels := rfl
@[simp] theorem State.setMonitor_register : (s.setMonitor x).register = s.register := rfl
@[simp] theorem State.setMonitor_monitor : (s.setMonitor x).monitor = x := rfl
@[simp] theorem State.setMonitor_loader : (s.setMonitor x).loader = s.loader := rfl
@[simp] theorem State.setMonitor_status : (s.setMonitor x).status = s.status := rfl
@[simp] theorem State.setMonitor_counters : (s.setMonitor x).counters = s.counters := rfl
end

section
variable (x : Loader)
@[simp] theorem State.setLoader_pending : (s.setLoader x).pending = s.pending := rfl
@[simp] theorem State.setLoader_meetings : (s.setLoader x).meetings = s.meetings := rfl
@[simp] theorem State.setLoader_power : (s.setLoader x).power = s.power := rfl
@[simp] theorem State.setLoader_elapsed : (s.setLoader x).elapsed = s.elapsed := rfl
@[simp] theorem State.setLoader_line : (s.setLoader x).line = s.line := rfl
@[simp] theorem State.setLoader_origins : (s.setLoader x).origins = s.origins := rfl
@[simp] theorem State.setLoader_relay : (s.setLoader x).relay = s.relay := rfl
@[simp] theorem State.setLoader_time : (s.setLoader x).time = s.time := rfl
@[simp] theorem State.setLoader_programs : (s.setLoader x).programs = s.programs := rfl
@[simp] theorem State.setLoader_resolver : (s.setLoader x).resolver = s.resolver := rfl
@[simp] theorem State.setLoader_channels : (s.setLoader x).channels = s.channels := rfl
@[simp] theorem State.setLoader_register : (s.setLoader x).register = s.register := rfl
@[simp] theorem State.setLoader_monitor : (s.setLoader x).monitor = s.monitor := rfl
@[simp] theorem State.setLoader_loader : (s.setLoader x).loader = x := rfl
@[simp] theorem State.setLoader_status : (s.setLoader x).status = s.status := rfl
@[simp] theorem State.setLoader_counters : (s.setLoader x).counters = s.counters := rfl
end

section
variable (x : StatusPort)
@[simp] theorem State.setStatus_pending : (s.setStatus x).pending = s.pending := rfl
@[simp] theorem State.setStatus_meetings : (s.setStatus x).meetings = s.meetings := rfl
@[simp] theorem State.setStatus_power : (s.setStatus x).power = s.power := rfl
@[simp] theorem State.setStatus_elapsed : (s.setStatus x).elapsed = s.elapsed := rfl
@[simp] theorem State.setStatus_line : (s.setStatus x).line = s.line := rfl
@[simp] theorem State.setStatus_origins : (s.setStatus x).origins = s.origins := rfl
@[simp] theorem State.setStatus_relay : (s.setStatus x).relay = s.relay := rfl
@[simp] theorem State.setStatus_time : (s.setStatus x).time = s.time := rfl
@[simp] theorem State.setStatus_programs : (s.setStatus x).programs = s.programs := rfl
@[simp] theorem State.setStatus_resolver : (s.setStatus x).resolver = s.resolver := rfl
@[simp] theorem State.setStatus_channels : (s.setStatus x).channels = s.channels := rfl
@[simp] theorem State.setStatus_register : (s.setStatus x).register = s.register := rfl
@[simp] theorem State.setStatus_monitor : (s.setStatus x).monitor = s.monitor := rfl
@[simp] theorem State.setStatus_loader : (s.setStatus x).loader = s.loader := rfl
@[simp] theorem State.setStatus_status : (s.setStatus x).status = x := rfl
@[simp] theorem State.setStatus_counters : (s.setStatus x).counters = s.counters := rfl
end

section
variable (x : Counters)
@[simp] theorem State.setCounters_pending : (s.setCounters x).pending = s.pending := rfl
@[simp] theorem State.setCounters_meetings : (s.setCounters x).meetings = s.meetings := rfl
@[simp] theorem State.setCounters_power : (s.setCounters x).power = s.power := rfl
@[simp] theorem State.setCounters_elapsed : (s.setCounters x).elapsed = s.elapsed := rfl
@[simp] theorem State.setCounters_line : (s.setCounters x).line = s.line := rfl
@[simp] theorem State.setCounters_origins : (s.setCounters x).origins = s.origins := rfl
@[simp] theorem State.setCounters_relay : (s.setCounters x).relay = s.relay := rfl
@[simp] theorem State.setCounters_time : (s.setCounters x).time = s.time := rfl
@[simp] theorem State.setCounters_programs : (s.setCounters x).programs = s.programs := rfl
@[simp] theorem State.setCounters_resolver : (s.setCounters x).resolver = s.resolver := rfl
@[simp] theorem State.setCounters_channels : (s.setCounters x).channels = s.channels := rfl
@[simp] theorem State.setCounters_register : (s.setCounters x).register = s.register := rfl
@[simp] theorem State.setCounters_monitor : (s.setCounters x).monitor = s.monitor := rfl
@[simp] theorem State.setCounters_loader : (s.setCounters x).loader = s.loader := rfl
@[simp] theorem State.setCounters_status : (s.setCounters x).status = s.status := rfl
@[simp] theorem State.setCounters_counters : (s.setCounters x).counters = x := rfl
end

/-! ## An event counted, a change noted, a meeting taken -/

@[simp] theorem State.count_pending (k : Counter) : (s.count k).pending = s.pending := rfl
@[simp] theorem State.count_meetings (k : Counter) : (s.count k).meetings = s.meetings := rfl
@[simp] theorem State.count_power (k : Counter) : (s.count k).power = s.power := rfl
@[simp] theorem State.count_elapsed (k : Counter) : (s.count k).elapsed = s.elapsed := rfl
@[simp] theorem State.count_line (k : Counter) : (s.count k).line = s.line := rfl
@[simp] theorem State.count_origins (k : Counter) : (s.count k).origins = s.origins := rfl
@[simp] theorem State.count_relay (k : Counter) : (s.count k).relay = s.relay := rfl
@[simp] theorem State.count_time (k : Counter) : (s.count k).time = s.time := rfl
@[simp] theorem State.count_programs (k : Counter) : (s.count k).programs = s.programs := rfl
@[simp] theorem State.count_resolver (k : Counter) : (s.count k).resolver = s.resolver := rfl
@[simp] theorem State.count_channels (k : Counter) : (s.count k).channels = s.channels := rfl
@[simp] theorem State.count_register (k : Counter) : (s.count k).register = s.register := rfl
@[simp] theorem State.count_monitor (k : Counter) : (s.count k).monitor = s.monitor := rfl
@[simp] theorem State.count_loader (k : Counter) : (s.count k).loader = s.loader := rfl
@[simp] theorem State.count_status (k : Counter) : (s.count k).status = s.status := rfl
@[simp] theorem State.count_counters (k : Counter) : (s.count k).counters = s.counters.add k 1 := rfl

@[simp] theorem State.noteChange_pending : (s.noteChange).pending = s.pending := rfl
@[simp] theorem State.noteChange_meetings : (s.noteChange).meetings = s.meetings := rfl
@[simp] theorem State.noteChange_power : (s.noteChange).power = s.power := rfl
@[simp] theorem State.noteChange_elapsed : (s.noteChange).elapsed = s.elapsed := rfl
@[simp] theorem State.noteChange_line : (s.noteChange).line = s.line := rfl
@[simp] theorem State.noteChange_origins : (s.noteChange).origins = s.origins := rfl
@[simp] theorem State.noteChange_relay : (s.noteChange).relay = s.relay := rfl
@[simp] theorem State.noteChange_time : (s.noteChange).time = s.time := rfl
@[simp] theorem State.noteChange_programs : (s.noteChange).programs = s.programs := rfl
@[simp] theorem State.noteChange_resolver : (s.noteChange).resolver = s.resolver := rfl
@[simp] theorem State.noteChange_channels : (s.noteChange).channels = s.channels := rfl
@[simp] theorem State.noteChange_register : (s.noteChange).register = s.register := rfl
@[simp] theorem State.noteChange_monitor : (s.noteChange).monitor = s.monitor := rfl
@[simp] theorem State.noteChange_loader : (s.noteChange).loader = s.loader := rfl
@[simp] theorem State.noteChange_status : (s.noteChange).status = { s.status with changePending := true } := rfl
@[simp] theorem State.noteChange_counters : (s.noteChange).counters = s.counters := rfl

@[simp] theorem State.met_pending : (s.met).pending = s.pending := rfl
@[simp] theorem State.met_meetings : (s.met).meetings = s.meetings.tail := rfl
@[simp] theorem State.met_power : (s.met).power = s.power := rfl
@[simp] theorem State.met_elapsed : (s.met).elapsed = s.elapsed := rfl
@[simp] theorem State.met_line : (s.met).line = s.line := rfl
@[simp] theorem State.met_origins : (s.met).origins = s.origins := rfl
@[simp] theorem State.met_relay : (s.met).relay = s.relay := rfl
@[simp] theorem State.met_time : (s.met).time = s.time := rfl
@[simp] theorem State.met_programs : (s.met).programs = s.programs := rfl
@[simp] theorem State.met_resolver : (s.met).resolver = s.resolver := rfl
@[simp] theorem State.met_channels : (s.met).channels = s.channels := rfl
@[simp] theorem State.met_register : (s.met).register = s.register := rfl
@[simp] theorem State.met_monitor : (s.met).monitor = s.monitor := rfl
@[simp] theorem State.met_loader : (s.met).loader = s.loader := rfl
@[simp] theorem State.met_status : (s.met).status = s.status := rfl
@[simp] theorem State.met_counters : (s.met).counters = s.counters := rfl

/-! ## An event at one channel -/

section
variable (c : Channel) (f : ChannelUnit → Work)
@[simp] theorem State.onChannel_pending : (s.onChannel c f).pending = s.pending := rfl
@[simp] theorem State.onChannel_meetings : (s.onChannel c f).meetings = s.meetings := rfl
@[simp] theorem State.onChannel_power : (s.onChannel c f).power = s.power := rfl
@[simp] theorem State.onChannel_elapsed : (s.onChannel c f).elapsed = s.elapsed := rfl
@[simp] theorem State.onChannel_line : (s.onChannel c f).line = s.line := rfl
@[simp] theorem State.onChannel_origins : (s.onChannel c f).origins = s.origins := rfl
@[simp] theorem State.onChannel_relay : (s.onChannel c f).relay = s.relay := rfl
@[simp] theorem State.onChannel_time : (s.onChannel c f).time = s.time := rfl
@[simp] theorem State.onChannel_programs : (s.onChannel c f).programs = s.programs := rfl
@[simp] theorem State.onChannel_resolver : (s.onChannel c f).resolver = s.resolver := rfl
@[simp] theorem State.onChannel_channels : (s.onChannel c f).channels = s.channels.set c (f (s.channels.get c)).unit := rfl
@[simp] theorem State.onChannel_register : (s.onChannel c f).register = s.register := rfl
@[simp] theorem State.onChannel_monitor : (s.onChannel c f).monitor = s.monitor := rfl
@[simp] theorem State.onChannel_loader : (s.onChannel c f).loader = s.loader := rfl
@[simp] theorem State.onChannel_status : (s.onChannel c f).status = 
    { s.status with changePending := s.status.changePending || (f (s.channels.get c)).changed } := rfl
@[simp] theorem State.onChannel_counters : (s.onChannel c f).counters = 
    (s.counters.add .ordersApplied (f (s.channels.get c)).applied).add .ordersRefused
      (f (s.channels.get c)).refused := rfl
end

end

/-! ## Six like things -/

section
variable {α : Type} (v : Six α) (c d : Channel) (x : α)

@[simp] theorem Six.get_set_self : (v.set c x).get c = x := by cases c <;> rfl

theorem Six.get_set_of_ne (h : d ≠ c) : (v.set c x).get d = v.get d := by
  cases c <;> cases d <;> first | rfl | exact absurd rfl h

theorem Six.get_set : (v.set c x).get d = if d = c then x else v.get d := by
  by_cases h : d = c
  · subst h; simp
  · simp [h, Six.get_set_of_ne v c d x h]

@[simp] theorem Six.get_all : (Six.all x).get c = x := by cases c <;> rfl

@[simp] theorem Six.get_of (f : Channel → α) : (Six.of f).get c = f c := by cases c <;> rfl

/-- Six like things are told by what each channel has. -/
theorem Six.ext_get {v w : Six α} (h : ∀ c, v.get c = w.get c) : v = w := by
  cases v; cases w
  simpa [Six.get] using And.intro (h .ch1) ⟨h .ch2, h .ch3, h .ch4, h .ch5, h .ch6⟩

end

/-- Every channel is in the list of channels. -/
@[simp] theorem mem_channelList (c : Channel) : c ∈ channelList := by cases c <;> decide

/-- The list of channels names none twice. -/
theorem channelList_nodup : channelList.Nodup := by decide

/-! ## Conditions -/

@[simp] theorem Conditions.get_set_self (v : Conditions) (k : Condition) (x : Bool) :
    (v.set k x).get k = x := by cases k <;> rfl

theorem Conditions.get_set_of_ne (v : Conditions) {k j : Condition} (x : Bool) (h : j ≠ k) :
    (v.set k x).get j = v.get j := by
  cases k <;> cases j <;> first | rfl | exact absurd rfl h

/-- An active set meets a mask just when some condition is in both. -/
theorem Conditions.meets_iff (active mask : Conditions) :
    active.meets mask = true ↔ ∃ k, active.get k = true ∧ mask.get k = true := by
  constructor
  · intro h
    simp only [Conditions.meets, Bool.or_eq_true, Bool.and_eq_true] at h
    obtain (((h | h) | h) | h) | h := h
    · exact ⟨.timeInvalid, h⟩
    · exact ⟨.noProgram, h⟩
    · exact ⟨.silence, h⟩
    · exact ⟨.mainsFreq, h⟩
    · exact ⟨.timeStep, h⟩
  · rintro ⟨k, h⟩
    cases k <;> simp only [Conditions.get] at h <;> simp [Conditions.meets, h]

/-! ## Counters -/

/-- A count goes up to 65535 and never down. -/
theorem le_saturate (n k : Nat) : n ≤ saturate n k := Nat.le_max_left _ _

theorem saturate_le (n k : Nat) (h : n ≤ Config.most16) : saturate n k ≤ Config.most16 :=
  Nat.max_le.2 ⟨h, Nat.min_le_left _ _⟩

@[simp] theorem saturate_zero (n : Nat) : saturate n 0 = n := by
  simp only [saturate, Nat.add_zero]; omega

/-- Two increases make one of their sum. -/
theorem saturate_saturate (n j k : Nat) : saturate (saturate n j) k = saturate n (j + k) := by
  simp only [saturate]; omega

@[simp] theorem Counters.add_zero (c : Counters) (k : Counter) : c.add k 0 = c := by
  cases k <;> simp [Counters.add]

/-- Two increases of one counter make one of their sum. -/
theorem Counters.add_add (c : Counters) (k : Counter) (m n : Nat) :
    (c.add k m).add k n = c.add k (m + n) := by
  cases k <;> simp [Counters.add, saturate_saturate]

/-- Increases of two counters come to the same in either order (R201). -/
theorem Counters.add_comm (c : Counters) (j k : Counter) (m n : Nat) :
    (c.add j m).add k n = (c.add k n).add j m := by
  cases j <;> cases k <;> simp [Counters.add, saturate_saturate, Nat.add_comm]

end Sys2Proof.Machine
end

