-- ==== Sys2Proof/Laws/Channels.lean ====
section
/-! SUPPORT. What each operation on one channel leaves alone, what it hands and what it counts; and an event
at one channel or at every channel. -/

namespace Sys2Proof.Machine

/-! ## Steps that only write the unit -/

section
variable (w : Work) (u : ChannelUnit)
@[simp] theorem Work.idle_unit : (Work.idle u).unit = u := rfl
@[simp] theorem Work.idle_changed : (Work.idle u).changed = false := rfl
@[simp] theorem Work.idle_applied : (Work.idle u).applied = 0 := rfl
@[simp] theorem Work.idle_refused : (Work.idle u).refused = 0 := rfl
@[simp] theorem Work.put_unit : (w.put u).unit = u := rfl
@[simp] theorem Work.put_applied : (w.put u).applied = w.applied := rfl
@[simp] theorem Work.put_refused : (w.put u).refused = w.refused := rfl
@[simp] theorem Work.report_unit : (w.report u).unit = u := rfl
@[simp] theorem Work.report_applied : (w.report u).applied = w.applied := rfl
@[simp] theorem Work.report_refused : (w.report u).refused = w.refused := rfl
@[simp] theorem Work.countApplied_unit : w.countApplied.unit = w.unit := rfl
@[simp] theorem Work.countApplied_changed : w.countApplied.changed = w.changed := rfl
@[simp] theorem Work.countApplied_applied : w.countApplied.applied = w.applied + 1 := rfl
@[simp] theorem Work.countApplied_refused : w.countApplied.refused = w.refused := rfl
@[simp] theorem Work.countRefused_unit : w.countRefused.unit = w.unit := rfl
@[simp] theorem Work.countRefused_changed : w.countRefused.changed = w.changed := rfl
@[simp] theorem Work.countRefused_applied : w.countRefused.applied = w.applied := rfl
@[simp] theorem Work.countRefused_refused : w.countRefused.refused = w.refused + 1 := rfl
@[simp] theorem Work.put_changed : (w.put u).changed = w.changed := rfl
@[simp] theorem Work.report_changed : (w.report u).changed = true := rfl
end

/-! ## The output -/

section
variable (cc : ChannelConfig) (l : Level) (w : Work)
@[simp] theorem Work.drive_override : (w.drive cc l).unit.override = w.unit.override := by
  rfl
@[simp] theorem Work.drive_state : (w.drive cc l).unit.state = w.unit.state := by
  rfl
@[simp] theorem Work.drive_band : (w.drive cc l).unit.band = w.unit.band := by
  rfl
@[simp] theorem Work.drive_handed : (w.drive cc l).unit.handed = w.unit.handed := by
  rfl
@[simp] theorem Work.drive_input : (w.drive cc l).unit.input = w.unit.input := by
  rfl
@[simp] theorem Work.drive_forced : (w.drive cc l).unit.forced = w.unit.forced := by
  rfl
@[simp] theorem Work.drive_setter : (w.drive cc l).unit.setter = w.unit.setter := by
  rfl
@[simp] theorem Work.drive_applied : (w.drive cc l).applied = w.applied := by
  rfl
@[simp] theorem Work.drive_refused : (w.drive cc l).refused = w.refused := by
  rfl
end

section
variable (cc : ChannelConfig) (l : Level) (w : Work)
@[simp] theorem Work.request_override : (w.request cc l).unit.override = w.unit.override := by
  unfold Work.request; split_ifs <;> rfl
@[simp] theorem Work.request_state : (w.request cc l).unit.state = w.unit.state := by
  unfold Work.request; split_ifs <;> rfl
@[simp] theorem Work.request_band : (w.request cc l).unit.band = w.unit.band := by
  unfold Work.request; split_ifs <;> rfl
@[simp] theorem Work.request_handed : (w.request cc l).unit.handed = w.unit.handed := by
  unfold Work.request; split_ifs <;> rfl
@[simp] theorem Work.request_input : (w.request cc l).unit.input = w.unit.input := by
  unfold Work.request; split_ifs <;> rfl
@[simp] theorem Work.request_forced : (w.request cc l).unit.forced = w.unit.forced := by
  unfold Work.request; split_ifs <;> rfl
@[simp] theorem Work.request_setter : (w.request cc l).unit.setter = w.unit.setter := by
  unfold Work.request; split_ifs <;> rfl
@[simp] theorem Work.request_applied : (w.request cc l).applied = w.applied := by
  unfold Work.request; split_ifs <;> rfl
@[simp] theorem Work.request_refused : (w.request cc l).refused = w.refused := by
  unfold Work.request; split_ifs <;> rfl
end

section
variable (cc : ChannelConfig) (w : Work)
@[simp] theorem Work.fallbackEntry_override : (w.fallbackEntry cc).unit.override = w.unit.override := by
  unfold Work.fallbackEntry; split_ifs <;> simp
@[simp] theorem Work.fallbackEntry_state : (w.fallbackEntry cc).unit.state = w.unit.state := by
  unfold Work.fallbackEntry; split_ifs <;> simp
@[simp] theorem Work.fallbackEntry_band : (w.fallbackEntry cc).unit.band = w.unit.band := by
  unfold Work.fallbackEntry; split_ifs <;> simp
@[simp] theorem Work.fallbackEntry_handed : (w.fallbackEntry cc).unit.handed = w.unit.handed := by
  unfold Work.fallbackEntry; split_ifs <;> simp
@[simp] theorem Work.fallbackEntry_input : (w.fallbackEntry cc).unit.input = w.unit.input := by
  unfold Work.fallbackEntry; split_ifs <;> simp
@[simp] theorem Work.fallbackEntry_forced : (w.fallbackEntry cc).unit.forced = w.unit.forced := by
  unfold Work.fallbackEntry; split_ifs <;> simp
@[simp] theorem Work.fallbackEntry_setter : (w.fallbackEntry cc).unit.setter = w.unit.setter := by
  unfold Work.fallbackEntry; split_ifs <;> simp
@[simp] theorem Work.fallbackEntry_applied : (w.fallbackEntry cc).applied = w.applied := by
  unfold Work.fallbackEntry; split_ifs <;> simp
@[simp] theorem Work.fallbackEntry_refused : (w.fallbackEntry cc).refused = w.refused := by
  unfold Work.fallbackEntry; split_ifs <;> simp
end

section
variable (cc : ChannelConfig) (l : Level) (w : Work)
@[simp] theorem Work.straight_override : (w.straight cc l).unit.override = w.unit.override := by
  unfold Work.straight; split_ifs <;> rfl
@[simp] theorem Work.straight_state : (w.straight cc l).unit.state = w.unit.state := by
  unfold Work.straight; split_ifs <;> rfl
@[simp] theorem Work.straight_band : (w.straight cc l).unit.band = w.unit.band := by
  unfold Work.straight; split_ifs <;> rfl
@[simp] theorem Work.straight_input : (w.straight cc l).unit.input = w.unit.input := by
  unfold Work.straight; split_ifs <;> rfl
@[simp] theorem Work.straight_forced : (w.straight cc l).unit.forced = w.unit.forced := by
  unfold Work.straight; split_ifs <;> rfl
@[simp] theorem Work.straight_setter : (w.straight cc l).unit.setter = w.unit.setter := by
  unfold Work.straight; split_ifs <;> rfl
@[simp] theorem Work.straight_applied : (w.straight cc l).applied = w.applied := by
  unfold Work.straight; split_ifs <;> rfl
@[simp] theorem Work.straight_refused : (w.straight cc l).refused = w.refused := by
  unfold Work.straight; split_ifs <;> rfl
end

section
variable (cc : ChannelConfig) (w : Work)
@[simp] theorem Work.takeDeferred_override : (w.takeDeferred cc).unit.override = w.unit.override := by
  unfold Work.takeDeferred; split <;> [split_ifs <;> rfl; rfl]
@[simp] theorem Work.takeDeferred_state : (w.takeDeferred cc).unit.state = w.unit.state := by
  unfold Work.takeDeferred; split <;> [split_ifs <;> rfl; rfl]
@[simp] theorem Work.takeDeferred_band : (w.takeDeferred cc).unit.band = w.unit.band := by
  unfold Work.takeDeferred; split <;> [split_ifs <;> rfl; rfl]
@[simp] theorem Work.takeDeferred_handed : (w.takeDeferred cc).unit.handed = w.unit.handed := by
  unfold Work.takeDeferred; split <;> [split_ifs <;> rfl; rfl]
@[simp] theorem Work.takeDeferred_input : (w.takeDeferred cc).unit.input = w.unit.input := by
  unfold Work.takeDeferred; split <;> [split_ifs <;> rfl; rfl]
@[simp] theorem Work.takeDeferred_forced : (w.takeDeferred cc).unit.forced = w.unit.forced := by
  unfold Work.takeDeferred; split <;> [split_ifs <;> rfl; rfl]
@[simp] theorem Work.takeDeferred_setter : (w.takeDeferred cc).unit.setter = w.unit.setter := by
  unfold Work.takeDeferred; split <;> [split_ifs <;> rfl; rfl]
@[simp] theorem Work.takeDeferred_applied : (w.takeDeferred cc).applied = w.applied := by
  unfold Work.takeDeferred; split <;> [split_ifs <;> rfl; rfl]
@[simp] theorem Work.takeDeferred_refused : (w.takeDeferred cc).refused = w.refused := by
  unfold Work.takeDeferred; split <;> [split_ifs <;> rfl; rfl]
end

section
variable (cc : ChannelConfig) (w : Work)
@[simp] theorem Work.dwellTick_override : (w.dwellTick cc).unit.override = w.unit.override := by
  unfold Work.dwellTick; split_ifs <;> simp
@[simp] theorem Work.dwellTick_state : (w.dwellTick cc).unit.state = w.unit.state := by
  unfold Work.dwellTick; split_ifs <;> simp
@[simp] theorem Work.dwellTick_band : (w.dwellTick cc).unit.band = w.unit.band := by
  unfold Work.dwellTick; split_ifs <;> simp
@[simp] theorem Work.dwellTick_handed : (w.dwellTick cc).unit.handed = w.unit.handed := by
  unfold Work.dwellTick; split_ifs <;> simp
@[simp] theorem Work.dwellTick_input : (w.dwellTick cc).unit.input = w.unit.input := by
  unfold Work.dwellTick; split_ifs <;> simp
@[simp] theorem Work.dwellTick_forced : (w.dwellTick cc).unit.forced = w.unit.forced := by
  unfold Work.dwellTick; split_ifs <;> simp
@[simp] theorem Work.dwellTick_setter : (w.dwellTick cc).unit.setter = w.unit.setter := by
  unfold Work.dwellTick; split_ifs <;> simp
@[simp] theorem Work.dwellTick_applied : (w.dwellTick cc).applied = w.applied := by
  unfold Work.dwellTick; split_ifs <;> simp
@[simp] theorem Work.dwellTick_refused : (w.dwellTick cc).refused = w.refused := by
  unfold Work.dwellTick; split_ifs <;> simp
end

/-! ## The record and the requested level -/

section
variable (cc : ChannelConfig) (w : Work)
@[simp] theorem Work.rework_override : (w.rework cc).unit.override = w.unit.override := by
  unfold Work.rework; split <;> [rfl; (dsimp only; split_ifs <;> simp)]
@[simp] theorem Work.rework_state : (w.rework cc).unit.state = w.unit.state := by
  unfold Work.rework; split <;> [rfl; (dsimp only; split_ifs <;> simp)]
@[simp] theorem Work.rework_band : (w.rework cc).unit.band = w.unit.band := by
  unfold Work.rework; split <;> [rfl; (dsimp only; split_ifs <;> simp)]
@[simp] theorem Work.rework_input : (w.rework cc).unit.input = w.unit.input := by
  unfold Work.rework; split <;> [rfl; (dsimp only; split_ifs <;> simp)]
@[simp] theorem Work.rework_forced : (w.rework cc).unit.forced = w.unit.forced := by
  unfold Work.rework; split <;> [rfl; (dsimp only; split_ifs <;> simp)]
@[simp] theorem Work.rework_setter : (w.rework cc).unit.setter = w.unit.setter := by
  unfold Work.rework; split <;> [rfl; (dsimp only; split_ifs <;> simp)]
@[simp] theorem Work.rework_applied : (w.rework cc).applied = w.applied := by
  unfold Work.rework; split <;> [rfl; (dsimp only; split_ifs <;> simp)]
@[simp] theorem Work.rework_refused : (w.rework cc).refused = w.refused := by
  unfold Work.rework; split <;> [rfl; (dsimp only; split_ifs <;> simp)]
end

section
variable (i : Imposed) (w : Work)
@[simp] theorem Work.impose_state : (w.impose i).unit.state = w.unit.state := by
  unfold Work.impose; split_ifs <;> rfl
@[simp] theorem Work.impose_band : (w.impose i).unit.band = w.unit.band := by
  unfold Work.impose; split_ifs <;> rfl
@[simp] theorem Work.impose_handed : (w.impose i).unit.handed = w.unit.handed := by
  unfold Work.impose; split_ifs <;> rfl
@[simp] theorem Work.impose_output : (w.impose i).unit.output = w.unit.output := by
  unfold Work.impose; split_ifs <;> rfl
@[simp] theorem Work.impose_deferred : (w.impose i).unit.deferred = w.unit.deferred := by
  unfold Work.impose; split_ifs <;> rfl
@[simp] theorem Work.impose_dwell : (w.impose i).unit.dwell = w.unit.dwell := by
  unfold Work.impose; split_ifs <;> rfl
@[simp] theorem Work.impose_input : (w.impose i).unit.input = w.unit.input := by
  unfold Work.impose; split_ifs <;> rfl
@[simp] theorem Work.impose_forced : (w.impose i).unit.forced = w.unit.forced := by
  unfold Work.impose; split_ifs <;> rfl
@[simp] theorem Work.impose_setter : (w.impose i).unit.setter = w.unit.setter := by
  unfold Work.impose; split_ifs <;> rfl
@[simp] theorem Work.impose_applied : (w.impose i).applied = w.applied := by
  unfold Work.impose; split_ifs <;> rfl
@[simp] theorem Work.impose_refused : (w.impose i).refused = w.refused := by
  unfold Work.impose; split_ifs <;> rfl
end

@[simp] theorem Work.impose_imposed (i : Imposed) (w : Work) :
    (w.impose i).unit.override.imposed = i := by
  unfold Work.impose; split_ifs <;> rfl

@[simp] theorem Work.impose_source (i : Imposed) (w : Work) :
    (w.impose i).unit.override.source = w.unit.override.source := by
  unfold Work.impose; split_ifs <;> rfl

@[simp] theorem Work.wroteBy_imposed (src : Source) (w : Work) :
    (w.wroteBy src).unit.override.imposed = w.unit.override.imposed := rfl

@[simp] theorem Work.wroteBy_source (src : Source) (w : Work) :
    (w.wroteBy src).unit.override.source = some src := rfl

section
variable (src : Source) (w : Work)
@[simp] theorem Work.wroteBy_state : (w.wroteBy src).unit.state = w.unit.state := by
  rfl
@[simp] theorem Work.wroteBy_band : (w.wroteBy src).unit.band = w.unit.band := by
  rfl
@[simp] theorem Work.wroteBy_handed : (w.wroteBy src).unit.handed = w.unit.handed := by
  rfl
@[simp] theorem Work.wroteBy_output : (w.wroteBy src).unit.output = w.unit.output := by
  rfl
@[simp] theorem Work.wroteBy_deferred : (w.wroteBy src).unit.deferred = w.unit.deferred := by
  rfl
@[simp] theorem Work.wroteBy_dwell : (w.wroteBy src).unit.dwell = w.unit.dwell := by
  rfl
@[simp] theorem Work.wroteBy_input : (w.wroteBy src).unit.input = w.unit.input := by
  rfl
@[simp] theorem Work.wroteBy_forced : (w.wroteBy src).unit.forced = w.unit.forced := by
  rfl
@[simp] theorem Work.wroteBy_setter : (w.wroteBy src).unit.setter = w.unit.setter := by
  rfl
@[simp] theorem Work.wroteBy_applied : (w.wroteBy src).applied = w.applied := by
  rfl
@[simp] theorem Work.wroteBy_refused : (w.wroteBy src).refused = w.refused := by
  rfl
end

section
variable (cc : ChannelConfig) (w : Work)
@[simp] theorem Work.recordTick_state : (w.recordTick cc).unit.state = w.unit.state := by
  unfold Work.recordTick; dsimp only; split_ifs <;> simp
@[simp] theorem Work.recordTick_band : (w.recordTick cc).unit.band = w.unit.band := by
  unfold Work.recordTick; dsimp only; split_ifs <;> simp
@[simp] theorem Work.recordTick_input : (w.recordTick cc).unit.input = w.unit.input := by
  unfold Work.recordTick; dsimp only; split_ifs <;> simp
@[simp] theorem Work.recordTick_forced : (w.recordTick cc).unit.forced = w.unit.forced := by
  unfold Work.recordTick; dsimp only; split_ifs <;> simp
@[simp] theorem Work.recordTick_setter : (w.recordTick cc).unit.setter = w.unit.setter := by
  unfold Work.recordTick; dsimp only; split_ifs <;> simp
@[simp] theorem Work.recordTick_applied : (w.recordTick cc).applied = w.applied := by
  unfold Work.recordTick; dsimp only; split_ifs <;> simp
@[simp] theorem Work.recordTick_refused : (w.recordTick cc).refused = w.refused := by
  unfold Work.recordTick; dsimp only; split_ifs <;> simp
end

/-- What the superseding test answers: the same origin wrote the record with a newer serial (R126). -/
theorem supersededBy_iff {src : Option Source} {origin : Byte} {serial : Word} :
    supersededBy src origin serial = true ↔ ∃ held, src = some (.remote origin held) ∧ newer held serial = true := by
  rcases src with _ | _ | ⟨o, held⟩ <;> simp [supersededBy]

section
variable (cc : ChannelConfig) (slot : Nat) (origin : Byte) (serial : Word) (age : Nat)
  (o : ChannelOrder) (w : Work)
@[simp] theorem Work.order_state : (w.order cc slot origin serial age o).unit.state = w.unit.state := by
  unfold Work.order; split_ifs <;> [simp; (split <;> simp); rfl]
@[simp] theorem Work.order_band : (w.order cc slot origin serial age o).unit.band = w.unit.band := by
  unfold Work.order; split_ifs <;> [simp; (split <;> simp); rfl]
@[simp] theorem Work.order_input : (w.order cc slot origin serial age o).unit.input = w.unit.input := by
  unfold Work.order; split_ifs <;> [simp; (split <;> simp); rfl]
@[simp] theorem Work.order_forced : (w.order cc slot origin serial age o).unit.forced = w.unit.forced := by
  unfold Work.order; split_ifs <;> [simp; (split <;> simp); rfl]
@[simp] theorem Work.order_setter : (w.order cc slot origin serial age o).unit.setter = w.unit.setter := by
  unfold Work.order; split_ifs <;> [simp; (split <;> simp); rfl]
end

section
variable (cc : ChannelConfig) (minutes : Nat) (w : Work)
@[simp] theorem Work.press_state : (w.press cc minutes).unit.state = w.unit.state := by
  unfold Work.press; split <;> [simp; (split_ifs <;> simp); rfl]
@[simp] theorem Work.press_band : (w.press cc minutes).unit.band = w.unit.band := by
  unfold Work.press; split <;> [simp; (split_ifs <;> simp); rfl]
@[simp] theorem Work.press_input : (w.press cc minutes).unit.input = w.unit.input := by
  unfold Work.press; split <;> [simp; (split_ifs <;> simp); rfl]
@[simp] theorem Work.press_forced : (w.press cc minutes).unit.forced = w.unit.forced := by
  unfold Work.press; split <;> [simp; (split_ifs <;> simp); rfl]
@[simp] theorem Work.press_setter : (w.press cc minutes).unit.setter = w.unit.setter := by
  unfold Work.press; split <;> [simp; (split_ifs <;> simp); rfl]
@[simp] theorem Work.press_applied : (w.press cc minutes).applied = w.applied := by
  unfold Work.press; split <;> [simp; (split_ifs <;> simp); rfl]
@[simp] theorem Work.press_refused : (w.press cc minutes).refused = w.refused := by
  unfold Work.press; split <;> [simp; (split_ifs <;> simp); rfl]
end

section
variable (cc : ChannelConfig) (b : Option HandedBand) (w : Work)
@[simp] theorem Work.takeBand_override : (w.takeBand cc b).unit.override = w.unit.override := by
  simp [Work.takeBand]
@[simp] theorem Work.takeBand_state : (w.takeBand cc b).unit.state = w.unit.state := by
  simp [Work.takeBand]
@[simp] theorem Work.takeBand_input : (w.takeBand cc b).unit.input = w.unit.input := by
  simp [Work.takeBand]
@[simp] theorem Work.takeBand_forced : (w.takeBand cc b).unit.forced = w.unit.forced := by
  simp [Work.takeBand]
@[simp] theorem Work.takeBand_setter : (w.takeBand cc b).unit.setter = w.unit.setter := by
  simp [Work.takeBand]
@[simp] theorem Work.takeBand_applied : (w.takeBand cc b).applied = w.applied := by
  simp [Work.takeBand]
@[simp] theorem Work.takeBand_refused : (w.takeBand cc b).refused = w.refused := by
  simp [Work.takeBand]
end

@[simp] theorem Work.takeBand_band (cc : ChannelConfig) (b : Option HandedBand) (w : Work) :
    (w.takeBand cc b).unit.band = b := by simp [Work.takeBand]

/-! ## The channel state -/

section
variable (cc : ChannelConfig) (w : Work)
@[simp] theorem Work.enterHold_override : (w.enterHold cc).unit.override = w.unit.override := by
  simp [Work.enterHold]
@[simp] theorem Work.enterHold_band : (w.enterHold cc).unit.band = w.unit.band := by
  simp [Work.enterHold]
@[simp] theorem Work.enterHold_input : (w.enterHold cc).unit.input = w.unit.input := by
  simp [Work.enterHold]
@[simp] theorem Work.enterHold_forced : (w.enterHold cc).unit.forced = w.unit.forced := by
  simp [Work.enterHold]
@[simp] theorem Work.enterHold_setter : (w.enterHold cc).unit.setter = w.unit.setter := by
  simp [Work.enterHold]
@[simp] theorem Work.enterHold_applied : (w.enterHold cc).applied = w.applied := by
  simp [Work.enterHold]
@[simp] theorem Work.enterHold_refused : (w.enterHold cc).refused = w.refused := by
  simp [Work.enterHold]
end

@[simp] theorem Work.enterHold_state (cc : ChannelConfig) (w : Work) :
    (w.enterHold cc).unit.state = .fallbackHold := by simp [Work.enterHold]

@[simp] theorem Work.enterHold_handed (cc : ChannelConfig) (w : Work) :
    (w.enterHold cc).unit.handed = some cc.safe := by simp [Work.enterHold]

section
variable (cc : ChannelConfig) (w : Work)
@[simp] theorem Work.enterNormal_override : (w.enterNormal cc).unit.override = w.unit.override := by
  simp [Work.enterNormal]
@[simp] theorem Work.enterNormal_band : (w.enterNormal cc).unit.band = w.unit.band := by
  simp [Work.enterNormal]
@[simp] theorem Work.enterNormal_input : (w.enterNormal cc).unit.input = w.unit.input := by
  simp [Work.enterNormal]
@[simp] theorem Work.enterNormal_forced : (w.enterNormal cc).unit.forced = w.unit.forced := by
  simp [Work.enterNormal]
@[simp] theorem Work.enterNormal_setter : (w.enterNormal cc).unit.setter = w.unit.setter := by
  simp [Work.enterNormal]
@[simp] theorem Work.enterNormal_applied : (w.enterNormal cc).applied = w.applied := by
  simp [Work.enterNormal]
@[simp] theorem Work.enterNormal_refused : (w.enterNormal cc).refused = w.refused := by
  simp [Work.enterNormal]
end

@[simp] theorem Work.enterNormal_state (cc : ChannelConfig) (w : Work) :
    (w.enterNormal cc).unit.state = .normal := by simp [Work.enterNormal]

section
variable (cc : ChannelConfig) (slot : Nat) (w : Work)
@[simp] theorem Work.beginReturn_override : (w.beginReturn cc slot).unit.override = w.unit.override := by
  unfold Work.beginReturn; split_ifs <;> simp
@[simp] theorem Work.beginReturn_band : (w.beginReturn cc slot).unit.band = w.unit.band := by
  unfold Work.beginReturn; split_ifs <;> simp
@[simp] theorem Work.beginReturn_input : (w.beginReturn cc slot).unit.input = w.unit.input := by
  unfold Work.beginReturn; split_ifs <;> simp
@[simp] theorem Work.beginReturn_forced : (w.beginReturn cc slot).unit.forced = w.unit.forced := by
  unfold Work.beginReturn; split_ifs <;> simp
@[simp] theorem Work.beginReturn_setter : (w.beginReturn cc slot).unit.setter = w.unit.setter := by
  unfold Work.beginReturn; split_ifs <;> simp
@[simp] theorem Work.beginReturn_applied : (w.beginReturn cc slot).applied = w.applied := by
  unfold Work.beginReturn; split_ifs <;> simp
@[simp] theorem Work.beginReturn_refused : (w.beginReturn cc slot).refused = w.refused := by
  unfold Work.beginReturn; split_ifs <;> simp
end

section
variable (cc : ChannelConfig) (slot : Nat) (w : Work)
@[simp] theorem Work.leaveHold_override : (w.leaveHold cc slot).unit.override = w.unit.override := by
  unfold Work.leaveHold; split_ifs <;> simp
@[simp] theorem Work.leaveHold_band : (w.leaveHold cc slot).unit.band = w.unit.band := by
  unfold Work.leaveHold; split_ifs <;> simp
@[simp] theorem Work.leaveHold_input : (w.leaveHold cc slot).unit.input = w.unit.input := by
  unfold Work.leaveHold; split_ifs <;> simp
@[simp] theorem Work.leaveHold_forced : (w.leaveHold cc slot).unit.forced = w.unit.forced := by
  unfold Work.leaveHold; split_ifs <;> simp
@[simp] theorem Work.leaveHold_setter : (w.leaveHold cc slot).unit.setter = w.unit.setter := by
  unfold Work.leaveHold; split_ifs <;> simp
@[simp] theorem Work.leaveHold_applied : (w.leaveHold cc slot).applied = w.applied := by
  unfold Work.leaveHold; split_ifs <;> simp
@[simp] theorem Work.leaveHold_refused : (w.leaveHold cc slot).refused = w.refused := by
  unfold Work.leaveHold; split_ifs <;> simp
end

section
variable (cc : ChannelConfig) (w : Work)
@[simp] theorem Work.conditionRaised_override : (w.conditionRaised cc).unit.override = w.unit.override := by
  unfold Work.conditionRaised; split_ifs <;> simp
@[simp] theorem Work.conditionRaised_band : (w.conditionRaised cc).unit.band = w.unit.band := by
  unfold Work.conditionRaised; split_ifs <;> simp
@[simp] theorem Work.conditionRaised_input : (w.conditionRaised cc).unit.input = w.unit.input := by
  unfold Work.conditionRaised; split_ifs <;> simp
@[simp] theorem Work.conditionRaised_forced : (w.conditionRaised cc).unit.forced = w.unit.forced := by
  unfold Work.conditionRaised; split_ifs <;> simp
@[simp] theorem Work.conditionRaised_setter : (w.conditionRaised cc).unit.setter = w.unit.setter := by
  unfold Work.conditionRaised; split_ifs <;> simp
@[simp] theorem Work.conditionRaised_applied : (w.conditionRaised cc).applied = w.applied := by
  unfold Work.conditionRaised; split_ifs <;> simp
@[simp] theorem Work.conditionRaised_refused : (w.conditionRaised cc).refused = w.refused := by
  unfold Work.conditionRaised; split_ifs <;> simp
end

section
variable (cc : ChannelConfig) (slot : Nat) (active : Conditions) (w : Work)
@[simp] theorem Work.conditionCleared_override : (w.conditionCleared cc slot active).unit.override = w.unit.override := by
  unfold Work.conditionCleared; split_ifs <;> simp
@[simp] theorem Work.conditionCleared_band : (w.conditionCleared cc slot active).unit.band = w.unit.band := by
  unfold Work.conditionCleared; split_ifs <;> simp
@[simp] theorem Work.conditionCleared_input : (w.conditionCleared cc slot active).unit.input = w.unit.input := by
  unfold Work.conditionCleared; split_ifs <;> simp
@[simp] theorem Work.conditionCleared_forced : (w.conditionCleared cc slot active).unit.forced = w.unit.forced := by
  unfold Work.conditionCleared; split_ifs <;> simp
@[simp] theorem Work.conditionCleared_setter : (w.conditionCleared cc slot active).unit.setter = w.unit.setter := by
  unfold Work.conditionCleared; split_ifs <;> simp
@[simp] theorem Work.conditionCleared_applied : (w.conditionCleared cc slot active).applied = w.applied := by
  unfold Work.conditionCleared; split_ifs <;> simp
@[simp] theorem Work.conditionCleared_refused : (w.conditionCleared cc slot active).refused = w.refused := by
  unfold Work.conditionCleared; split_ifs <;> simp
end

section
variable (cc : ChannelConfig) (slot : Nat) (active : Conditions) (k : Condition) (w : Work)
@[simp] theorem Work.stationCondition_override : (w.stationCondition cc slot active k).unit.override = w.unit.override := by
  unfold Work.stationCondition; split_ifs <;> simp
@[simp] theorem Work.stationCondition_band : (w.stationCondition cc slot active k).unit.band = w.unit.band := by
  unfold Work.stationCondition; split_ifs <;> simp
@[simp] theorem Work.stationCondition_input : (w.stationCondition cc slot active k).unit.input = w.unit.input := by
  unfold Work.stationCondition; split_ifs <;> simp
@[simp] theorem Work.stationCondition_forced : (w.stationCondition cc slot active k).unit.forced = w.unit.forced := by
  unfold Work.stationCondition; split_ifs <;> simp
@[simp] theorem Work.stationCondition_setter : (w.stationCondition cc slot active k).unit.setter = w.unit.setter := by
  unfold Work.stationCondition; split_ifs <;> simp
@[simp] theorem Work.stationCondition_applied : (w.stationCondition cc slot active k).applied = w.applied := by
  unfold Work.stationCondition; split_ifs <;> simp
@[simp] theorem Work.stationCondition_refused : (w.stationCondition cc slot active k).refused = w.refused := by
  unfold Work.stationCondition; split_ifs <;> simp
end

section
variable (cc : ChannelConfig) (slot : Nat) (active : Conditions) (origin : Byte)
  (serial : Word) (on : Bool) (w : Work)
@[simp] theorem Work.forceSafe_override : (w.forceSafe cc slot active origin serial on).unit.override = w.unit.override := by
  unfold Work.forceSafe; split_ifs <;> simp
@[simp] theorem Work.forceSafe_band : (w.forceSafe cc slot active origin serial on).unit.band = w.unit.band := by
  unfold Work.forceSafe; split_ifs <;> simp
@[simp] theorem Work.forceSafe_input : (w.forceSafe cc slot active origin serial on).unit.input = w.unit.input := by
  unfold Work.forceSafe; split_ifs <;> simp
end

section
variable (cc : ChannelConfig) (w : Work)
@[simp] theorem Work.release_override : (w.release cc).unit.override = w.unit.override := by
  unfold Work.release; split_ifs <;> [(split <;> simp); rfl]
@[simp] theorem Work.release_band : (w.release cc).unit.band = w.unit.band := by
  unfold Work.release; split_ifs <;> [(split <;> simp); rfl]
@[simp] theorem Work.release_input : (w.release cc).unit.input = w.unit.input := by
  unfold Work.release; split_ifs <;> [(split <;> simp); rfl]
@[simp] theorem Work.release_forced : (w.release cc).unit.forced = w.unit.forced := by
  unfold Work.release; split_ifs <;> [(split <;> simp); rfl]
@[simp] theorem Work.release_setter : (w.release cc).unit.setter = w.unit.setter := by
  unfold Work.release; split_ifs <;> [(split <;> simp); rfl]
end

section
variable (cc : ChannelConfig) (w : Work)
@[simp] theorem Work.returnTick_override : (w.returnTick cc).unit.override = w.unit.override := by
  unfold Work.returnTick; split <;> [(split_ifs <;> simp); rfl]
@[simp] theorem Work.returnTick_band : (w.returnTick cc).unit.band = w.unit.band := by
  unfold Work.returnTick; split <;> [(split_ifs <;> simp); rfl]
@[simp] theorem Work.returnTick_input : (w.returnTick cc).unit.input = w.unit.input := by
  unfold Work.returnTick; split <;> [(split_ifs <;> simp); rfl]
@[simp] theorem Work.returnTick_forced : (w.returnTick cc).unit.forced = w.unit.forced := by
  unfold Work.returnTick; split <;> [(split_ifs <;> simp); rfl]
@[simp] theorem Work.returnTick_setter : (w.returnTick cc).unit.setter = w.unit.setter := by
  unfold Work.returnTick; split <;> [(split_ifs <;> simp); rfl]
@[simp] theorem Work.returnTick_applied : (w.returnTick cc).applied = w.applied := by
  unfold Work.returnTick; split <;> [(split_ifs <;> simp); rfl]
@[simp] theorem Work.returnTick_refused : (w.returnTick cc).refused = w.refused := by
  unfold Work.returnTick; split <;> [(split_ifs <;> simp); rfl]
end

section
variable (cc : ChannelConfig) (slot : Nat) (active : Conditions) (w : Work)
@[simp] theorem Work.place_override : (w.place cc slot active).unit.override = w.unit.override := by
  unfold Work.place; dsimp only; split_ifs <;> simp
@[simp] theorem Work.place_band : (w.place cc slot active).unit.band = w.unit.band := by
  unfold Work.place; dsimp only; split_ifs <;> simp
@[simp] theorem Work.place_input : (w.place cc slot active).unit.input = w.unit.input := by
  unfold Work.place; dsimp only; split_ifs <;> simp
@[simp] theorem Work.place_forced : (w.place cc slot active).unit.forced = w.unit.forced := by
  unfold Work.place; dsimp only; split_ifs <;> simp
@[simp] theorem Work.place_setter : (w.place cc slot active).unit.setter = w.unit.setter := by
  unfold Work.place; dsimp only; split_ifs <;> simp
@[simp] theorem Work.place_applied : (w.place cc slot active).applied = w.applied := by
  unfold Work.place; dsimp only; split_ifs <;> simp
@[simp] theorem Work.place_refused : (w.place cc slot active).refused = w.refused := by
  unfold Work.place; dsimp only; split_ifs <;> simp
end

section
variable  (w : Work)
@[simp] theorem Work.withhold_override : (w.withhold).unit.override = w.unit.override := by
  rfl
@[simp] theorem Work.withhold_band : (w.withhold).unit.band = w.unit.band := by
  rfl
@[simp] theorem Work.withhold_output : (w.withhold).unit.output = w.unit.output := by
  rfl
@[simp] theorem Work.withhold_deferred : (w.withhold).unit.deferred = w.unit.deferred := by
  rfl
@[simp] theorem Work.withhold_dwell : (w.withhold).unit.dwell = w.unit.dwell := by
  rfl
@[simp] theorem Work.withhold_input : (w.withhold).unit.input = w.unit.input := by
  rfl
@[simp] theorem Work.withhold_forced : (w.withhold).unit.forced = w.unit.forced := by
  rfl
@[simp] theorem Work.withhold_setter : (w.withhold).unit.setter = w.unit.setter := by
  rfl
@[simp] theorem Work.withhold_applied : (w.withhold).applied = w.applied := by
  rfl
@[simp] theorem Work.withhold_refused : (w.withhold).refused = w.refused := by
  rfl
end

/-! ## An event at one channel and at every channel -/

/-- An event at one channel leaves the others alone. -/
theorem State.onChannel_get_of_ne (s : State) {c d : Channel} (f : ChannelUnit → Work) (h : d ≠ c) :
    (s.onChannel c f).channels.get d = s.channels.get d := Six.get_set_of_ne _ _ _ _ h

/-- An event at one channel makes of it what it says. -/
theorem State.onChannel_get_self (s : State) (c : Channel) (f : ChannelUnit → Work) :
    (s.onChannel c f).channels.get c = (f (s.channels.get c)).unit := Six.get_set_self _ _ _

/-- What the state is after an event at each of some channels. -/
theorem foldl_onChannel (cs : List Channel) (hcs : cs.Nodup) (f : Channel → ChannelUnit → Work)
    (s : State) :
    let t := cs.foldl (fun s c => s.onChannel c (f c)) s
    (∀ c, t.channels.get c =
      if c ∈ cs then (f c (s.channels.get c)).unit else s.channels.get c) ∧
    t.status = { s.status with
      changePending := s.status.changePending || cs.any fun c => (f c (s.channels.get c)).changed } ∧
    t.counters = (s.counters.add .ordersApplied (cs.map fun c => (f c (s.channels.get c)).applied).sum).add
      .ordersRefused (cs.map fun c => (f c (s.channels.get c)).refused).sum := by
  induction cs generalizing s with
  | nil => simp
  | cons c cs ih =>
    obtain ⟨hc, hcs⟩ := List.nodup_cons.1 hcs
    obtain ⟨h1, h2, h3⟩ := ih hcs (s.onChannel c (f c))
    have hne : ∀ d ∈ cs, (s.onChannel c (f c)).channels.get d = s.channels.get d := fun d hd =>
      State.onChannel_get_of_ne s (f c) (fun e => hc (e ▸ hd))
    refine ⟨fun d => ?_, ?_, ?_⟩
    · rw [List.foldl_cons, h1 d]
      by_cases hd : d ∈ cs
      · rw [if_pos hd, if_pos (List.mem_cons_of_mem _ hd), hne d hd]
      · by_cases hdc : d = c
        · subst hdc; simp [hc]
        · simp [hd, hdc, Six.get_set_of_ne]
    · rw [List.foldl_cons, h2]
      have : (cs.any fun d => (f d ((s.onChannel c (f c)).channels.get d)).changed) =
          cs.any fun d => (f d (s.channels.get d)).changed := by
        rw [Bool.eq_iff_iff, List.any_eq_true, List.any_eq_true]
        exact ⟨fun ⟨d, hd, h⟩ => ⟨d, hd, hne d hd ▸ h⟩, fun ⟨d, hd, h⟩ => ⟨d, hd, (hne d hd).symm ▸ h⟩⟩
      rw [this]
      simp [Bool.or_assoc]
    · rw [List.foldl_cons, h3]
      have ha : (cs.map fun d => (f d ((s.onChannel c (f c)).channels.get d)).applied) =
          cs.map fun d => (f d (s.channels.get d)).applied :=
        List.map_congr_left fun d hd => by rw [hne d hd]
      have hr : (cs.map fun d => (f d ((s.onChannel c (f c)).channels.get d)).refused) =
          cs.map fun d => (f d (s.channels.get d)).refused :=
        List.map_congr_left fun d hd => by rw [hne d hd]
      rw [ha, hr]
      simp only [State.onChannel_counters, List.map_cons, List.sum_cons]
      rw [Counters.add_comm _ .ordersRefused .ordersApplied, Counters.add_add, Counters.add_add]

/-- What an event at one channel keeps, an event at every channel keeps. -/
theorem State.onEachChannel_keeps {P : State → Prop} (s : State) (f : Channel → ChannelUnit → Work)
    (h : ∀ c s, P s → P (s.onChannel c (f c))) (hs : P s) : P (s.onEachChannel f) := by
  unfold State.onEachChannel
  generalize channelList = cs
  induction cs generalizing s with
  | nil => exact hs
  | cons c cs ih => exact ih _ (h c s hs)

section
variable (s : State) (f : Channel → ChannelUnit → Work)

/-- An event at every channel makes of each what it says. -/
@[simp] theorem State.onEachChannel_get (c : Channel) :
    (s.onEachChannel f).channels.get c = (f c (s.channels.get c)).unit := by
  have h := (foldl_onChannel channelList channelList_nodup f s).1 c
  rwa [if_pos (mem_channelList c)] at h

/-- An event at every channel notes a change when one of them does. -/
theorem State.onEachChannel_status :
    (s.onEachChannel f).status = { s.status with
      changePending := s.status.changePending ||
        channelList.any fun c => (f c (s.channels.get c)).changed } :=
  (foldl_onChannel channelList channelList_nodup f s).2.1

/-- An event at every channel counts what each of them counts. -/
theorem State.onEachChannel_counters :
    (s.onEachChannel f).counters =
      (s.counters.add .ordersApplied
        (channelList.map fun c => (f c (s.channels.get c)).applied).sum).add
      .ordersRefused (channelList.map fun c => (f c (s.channels.get c)).refused).sum :=
  (foldl_onChannel channelList channelList_nodup f s).2.2

/-- An event at every channel that counts nothing leaves the counters alone. -/
theorem State.onEachChannel_counters_none
    (h : ∀ c, (f c (s.channels.get c)).applied = 0 ∧ (f c (s.channels.get c)).refused = 0) :
    (s.onEachChannel f).counters = s.counters := by
  rw [State.onEachChannel_counters]
  simp [channelList, h]

@[simp] theorem State.onEachChannel_pending : (s.onEachChannel f).pending = s.pending :=
  s.onEachChannel_keeps (P := fun t => t.pending = s.pending) f (fun _ _ h => h) rfl
@[simp] theorem State.onEachChannel_meetings : (s.onEachChannel f).meetings = s.meetings :=
  s.onEachChannel_keeps (P := fun t => t.meetings = s.meetings) f (fun _ _ h => h) rfl
@[simp] theorem State.onEachChannel_power : (s.onEachChannel f).power = s.power :=
  s.onEachChannel_keeps (P := fun t => t.power = s.power) f (fun _ _ h => h) rfl
@[simp] theorem State.onEachChannel_elapsed : (s.onEachChannel f).elapsed = s.elapsed :=
  s.onEachChannel_keeps (P := fun t => t.elapsed = s.elapsed) f (fun _ _ h => h) rfl
@[simp] theorem State.onEachChannel_line : (s.onEachChannel f).line = s.line :=
  s.onEachChannel_keeps (P := fun t => t.line = s.line) f (fun _ _ h => h) rfl
@[simp] theorem State.onEachChannel_origins : (s.onEachChannel f).origins = s.origins :=
  s.onEachChannel_keeps (P := fun t => t.origins = s.origins) f (fun _ _ h => h) rfl
@[simp] theorem State.onEachChannel_relay : (s.onEachChannel f).relay = s.relay :=
  s.onEachChannel_keeps (P := fun t => t.relay = s.relay) f (fun _ _ h => h) rfl
@[simp] theorem State.onEachChannel_time : (s.onEachChannel f).time = s.time :=
  s.onEachChannel_keeps (P := fun t => t.time = s.time) f (fun _ _ h => h) rfl
@[simp] theorem State.onEachChannel_programs : (s.onEachChannel f).programs = s.programs :=
  s.onEachChannel_keeps (P := fun t => t.programs = s.programs) f (fun _ _ h => h) rfl
@[simp] theorem State.onEachChannel_resolver : (s.onEachChannel f).resolver = s.resolver :=
  s.onEachChannel_keeps (P := fun t => t.resolver = s.resolver) f (fun _ _ h => h) rfl
@[simp] theorem State.onEachChannel_register : (s.onEachChannel f).register = s.register :=
  s.onEachChannel_keeps (P := fun t => t.register = s.register) f (fun _ _ h => h) rfl
@[simp] theorem State.onEachChannel_monitor : (s.onEachChannel f).monitor = s.monitor :=
  s.onEachChannel_keeps (P := fun t => t.monitor = s.monitor) f (fun _ _ h => h) rfl
@[simp] theorem State.onEachChannel_loader : (s.onEachChannel f).loader = s.loader :=
  s.onEachChannel_keeps (P := fun t => t.loader = s.loader) f (fun _ _ h => h) rfl
end

end Sys2Proof.Machine
end

