-- ==== Sys2Proof/Laws/Meetings.lean ====
section
/-! SUPPORT. Events that meet: every order in which they are taken is some order of the same events, so
what each of them keeps is kept, and what one of them alone does is done. -/

namespace Sys2Proof.Machine

theorem arrangeFrom_perm {α : Type} (fuel k : Nat) (xs : List α) : (arrangeFrom fuel k xs).Perm xs := by
  induction fuel generalizing k xs with
  | zero => exact .refl _
  | succ fuel ih =>
    cases xs with
    | nil => exact .refl _
    | cons x xs =>
      have hlt : k % (xs.length + 1) < (x :: xs).length := Nat.mod_lt _ (Nat.succ_pos _)
      refine ((ih _ _).cons _).trans ?_
      rw [List.getD_eq_getElem _ _ hlt]
      exact List.getElem_cons_eraseIdx_perm hlt

/-- The arranged events are the events. -/
theorem arrange_perm {α : Type} (k : Nat) (xs : List α) : (arrange k xs).Perm xs :=
  arrangeFrom_perm _ _ _

theorem foldl_acts_keep {P : State → Prop} (acts : List (State → State))
    (h : ∀ act ∈ acts, ∀ s, P s → P (act s)) (s : State) (hs : P s) :
    P (acts.foldl (fun s act => act s) s) := by
  induction acts generalizing s with
  | nil => exact hs
  | cons act acts ih =>
    exact ih (fun a ha => h a (List.mem_cons_of_mem _ ha)) _ (h act List.mem_cons_self s hs)

/-- What every event of a meeting keeps, the meeting keeps. -/
theorem State.inSomeOrder_keeps {P : State → Prop} {s : State} {acts : List (State → State)}
    (h : ∀ act ∈ acts, ∀ s, P s → P (act s)) (hs : P s.met) : P (s.inSomeOrder acts) :=
  foldl_acts_keep _ (fun act ha => h act ((arrange_perm _ _).mem_iff.1 ha)) _ hs

/-- What every event of a meeting but one leaves alone is, after the meeting, as that one makes it,
whatever the order. -/
theorem State.inSomeOrder_one {β : Type} {s : State} (f : State → β) (g : β → β)
    (pre post : List (State → State)) (act : State → State)
    (keep : ∀ a ∈ pre ++ post, ∀ s, f (a s) = f s) (does : ∀ s, f (act s) = g (f s)) :
    f (s.inSomeOrder (pre ++ act :: post)) = g (f s.met) := by
  have hp := arrange_perm s.meeting (pre ++ act :: post)
  obtain ⟨l, r, hlr⟩ := List.append_of_mem (hp.mem_iff.2 (by simp : act ∈ pre ++ act :: post))
  have hrest : (l ++ r).Perm (pre ++ post) := by
    have h1 : (act :: (l ++ r)).Perm (act :: (pre ++ post)) :=
      (List.perm_middle.symm.trans (hlr ▸ hp)).trans List.perm_middle
    exact h1.cons_inv
  have hk : ∀ (as : List (State → State)), (∀ a ∈ as, a ∈ l ++ r) →
      ∀ s, f (as.foldl (fun s act => act s) s) = f s := fun as ha s =>
    foldl_acts_keep (P := fun t => f t = f s) as
      (fun a hm t ht => (keep a (hrest.mem_iff.1 (ha a hm)) t).trans ht) s rfl
  unfold State.inSomeOrder
  rw [hlr, List.foldl_append, List.foldl_cons,
    hk r (fun a h => List.mem_append_right _ h), does, hk l (fun a h => List.mem_append_left _ h)]

/-- What every event of a meeting leaves alone, the meeting leaves alone. -/
theorem State.inSomeOrder_none {β : Type} {s : State} (f : State → β) (acts : List (State → State))
    (keep : ∀ a ∈ acts, ∀ s, f (a s) = f s) : f (s.inSomeOrder acts) = f s.met :=
  State.inSomeOrder_keeps (P := fun t => f t = f s.met) (fun a ha t ht => (keep a ha t).trans ht) rfl

/-- What every event of an advance keeps, the advance's events keep, whatever their order. -/
theorem State.takeClockEvents_keeps {P : State → Prop} {cfg : Configuration} {crossed : List Moment}
    (h : ∀ awaited e (s : State), P s → P (s.clockEvent cfg awaited e)) (es : List ClockEvent) {s : State}
    (hs : P s) : P (s.takeClockEvents cfg crossed es) := by
  induction es generalizing s with
  | nil => exact hs
  | cons e later ih => exact ih (h _ e s hs)

end Sys2Proof.Machine
end

