-- ==== Sys2Proof/Laws/Frames.lean ====
section
/-! SUPPORT. Frames: for each shared operation on the state, the parts of the state it may change. -/

namespace Sys2Proof.Machine

/-! ## Frames in general -/

theorem State.keepsAllBut.refl (ps : List Part) (s : State) : s.keepsAllBut ps s := by
  intro p _; cases p <;> rfl

theorem State.keepsAllBut.trans {ps : List Part} {s t u : State} (h : s.keepsAllBut ps t)
    (h' : t.keepsAllBut ps u) : s.keepsAllBut ps u := by
  intro p hp
  have h1 := h p hp
  have h2 := h' p hp
  cases p <;> exact Eq.trans h2 h1

theorem State.keepsAllBut.mono {ps qs : List Part} {s t : State} (h : s.keepsAllBut ps t)
    (hpq : ∀ p ∈ ps, p ∈ qs) : s.keepsAllBut qs t :=
  fun p hp => h p fun hp' => hp (hpq p hp')

/-- A frame read off the fields. -/
theorem State.keepsAllBut.of_fields {ps : List Part} {s t : State}
    (h : ∀ p, p ∈ ps ∨ s.same t p) : s.keepsAllBut ps t :=
  fun p hp => (h p).resolve_left hp

/-- What each event of a meeting leaves alone, the meeting leaves alone. -/
theorem State.inSomeOrder_frame {ps : List Part} {s : State} {acts : List (State → State)}
    (hm : Part.meetings ∈ ps) (h : ∀ act ∈ acts, ∀ s : State, s.keepsAllBut ps (act s)) :
    s.keepsAllBut ps (s.inSomeOrder acts) := by
  refine State.inSomeOrder_keeps (P := fun t => s.keepsAllBut ps t)
    (fun act ha t ht => ht.trans (h act ha t)) ?_
  intro p hp
  cases p <;> first | rfl | exact absurd hm hp

/-! ## The operations -/

theorem State.count_frame (k : Counter) (s : State) :
    s.keepsAllBut [.counters] (s.count k) := by
  intro p hp; cases p <;> first | rfl | (exact absurd (by decide) hp)

theorem State.noteChange_frame (s : State) :
    s.keepsAllBut [.status] (s.noteChange) := by
  intro p hp; cases p <;> first | rfl | (exact absurd (by decide) hp)

theorem State.onChannel_frame (c : Channel) (f : ChannelUnit → Work) (s : State) :
    s.keepsAllBut [.channels, .status, .counters] (s.onChannel c f) := by
  intro p hp; cases p <;> first | rfl | (exact absurd (by decide) hp)

theorem State.onChannel_frame_uncounted (c : Channel) (f : ChannelUnit → Work)
    (h : ∀ u, (f u).applied = 0 ∧ (f u).refused = 0) (s : State) :
    s.keepsAllBut [.channels, .status] (s.onChannel c f) := by
  intro p hp
  cases p <;> first | rfl | (exact absurd (by decide) hp) | simp [State.same, h]

theorem State.onEachChannel_frame (f : Channel → ChannelUnit → Work) (s : State) :
    s.keepsAllBut [.channels, .status, .counters] (s.onEachChannel f) := by
  intro p hp
  cases p <;> first | exact absurd (by decide) hp | simp [State.same]

theorem State.onEachChannel_frame_uncounted (f : Channel → ChannelUnit → Work)
    (h : ∀ c u, (f c u).applied = 0 ∧ (f c u).refused = 0) (s : State) :
    s.keepsAllBut [.channels, .status] (s.onEachChannel f) :=
  s.onEachChannel_keeps (P := fun t => s.keepsAllBut _ t) f
    (fun c t ht => ht.trans (State.onChannel_frame_uncounted c (f c) (h c) t)) (.refl _ s)

theorem State.setMonitor_frame (x : Monitor) (s : State) : s.keepsAllBut [.monitor] (s.setMonitor x) := by
  intro p hp; cases p <;> first | rfl | (exact absurd (by decide) hp)

theorem State.setResolver_frame (x : Resolver) (s : State) :
    s.keepsAllBut [.resolver] (s.setResolver x) := by
  intro p hp; cases p <;> first | rfl | (exact absurd (by decide) hp)

theorem State.setPrograms_frame (x : Collector) (s : State) :
    s.keepsAllBut [.programs] (s.setPrograms x) := by
  intro p hp; cases p <;> first | rfl | (exact absurd (by decide) hp)

theorem State.setTime_frame (x : Timekeeper) (s : State) : s.keepsAllBut [.time] (s.setTime x) := by
  intro p hp; cases p <;> first | rfl | (exact absurd (by decide) hp)

theorem State.setRelay_frame (x : Relay) (s : State) : s.keepsAllBut [.relay] (s.setRelay x) := by
  intro p hp; cases p <;> first | rfl | (exact absurd (by decide) hp)

theorem State.setLine_frame (x : Line) (s : State) : s.keepsAllBut [.line] (s.setLine x) := by
  intro p hp; cases p <;> first | rfl | (exact absurd (by decide) hp)

theorem State.setOrigins_frame (x : OriginTable) (s : State) :
    s.keepsAllBut [.origins] (s.setOrigins x) := by
  intro p hp; cases p <;> first | rfl | (exact absurd (by decide) hp)

theorem State.setCondition_frame (cfg : Configuration) (k : Condition) (x : Bool) (s : State) :
    s.keepsAllBut [.monitor, .channels, .status] (s.setCondition cfg k x) := by
  unfold State.setCondition
  split_ifs
  · exact .refl _ s
  · exact (((State.setMonitor_frame _ s).mono (by decide)).trans
      ((State.noteChange_frame _).mono (by decide))).trans
      ((State.onEachChannel_frame_uncounted _ (fun c u => by simp) _).mono (by decide))

theorem State.reportTimeInvalid_frame (cfg : Configuration) (s : State) :
    s.keepsAllBut [.monitor, .channels, .status] (s.reportTimeInvalid cfg) := by
  exact State.setCondition_frame _ _ _ s

theorem State.reportProgram_frame (cfg : Configuration) (s : State) :
    s.keepsAllBut [.monitor, .channels, .status] (s.reportProgram cfg) := by
  exact State.setCondition_frame _ _ _ s

theorem State.reportStep_frame (cfg : Configuration) (s : State) :
    s.keepsAllBut [.monitor, .channels, .status] (s.reportStep cfg) := by
  exact ((State.setMonitor_frame _ s).mono (by decide)).trans (State.setCondition_frame _ _ _ _)

theorem State.restartSilence_frame (cfg : Configuration) (s : State) :
    s.keepsAllBut [.monitor, .channels, .status] (s.restartSilence cfg) := by
  exact ((State.setMonitor_frame _ s).mono (by decide)).trans (State.setCondition_frame _ _ _ _)

theorem State.silenceTick_frame (cfg : Configuration) (s : State) :
    s.keepsAllBut [.monitor, .channels, .status] (s.silenceTick cfg) := by
  unfold State.silenceTick
  split
  · exact .refl _ s
  · split_ifs
    · exact .refl _ s
    · exact ((State.setMonitor_frame _ s).mono (by decide)).trans (State.setCondition_frame _ _ _ _)
    · exact (State.setMonitor_frame _ s).mono (by decide)

theorem State.stepHoldTick_frame (cfg : Configuration) (s : State) :
    s.keepsAllBut [.monitor, .channels, .status] (s.stepHoldTick cfg) := by
  unfold State.stepHoldTick
  split_ifs
  · exact .refl _ s
  · exact ((State.setMonitor_frame _ s).mono (by decide)).trans (State.setCondition_frame _ _ _ _)
  · exact (State.setMonitor_frame _ s).mono (by decide)

theorem State.handBand_frame (cfg : Configuration) (b : Option ResolvedBand) (s : State) :
    s.keepsAllBut [.resolver, .channels, .status] (s.handBand cfg b) := by
  unfold State.handBand
  split_ifs
  · exact .refl _ s
  · exact ((State.setResolver_frame _ s).mono (by decide)).trans
      ((State.onEachChannel_frame_uncounted _ (fun c u => by simp) _).mono (by decide))

theorem State.handIndex_frame (n : Nat) (s : State) :
    s.keepsAllBut [.resolver, .register, .status] (s.handIndex n) := by
  unfold State.handIndex
  split_ifs
  · exact .refl _ s
  · intro p hp; cases p <;> first | rfl | (exact absurd (by decide) hp)

theorem State.resolveOver_frame (cfg : Configuration) (windows : List (Option Window)) (s : State) :
    s.keepsAllBut [.resolver, .channels, .register, .status] (s.resolveOver cfg windows) :=
  ((State.handBand_frame _ _ s).mono (by decide)).trans ((State.handIndex_frame _ _).mono (by decide))

theorem State.resolve_frame (cfg : Configuration) (s : State) :
    s.keepsAllBut [.resolver, .channels, .register, .status] (s.resolve cfg) :=
  State.resolveOver_frame _ _ s

theorem State.resolveAwaiting_frame (cfg : Configuration) (awaited : List Moment) (s : State) :
    s.keepsAllBut [.resolver, .channels, .register, .status] (s.resolveAwaiting cfg awaited) :=
  State.resolveOver_frame _ _ s

theorem State.expireWindows_frame (s : State) :
    s.keepsAllBut [.resolver] (s.expireWindows) := by
  unfold State.expireWindows
  split_ifs
  · exact State.setResolver_frame _ s
  · exact .refl _ s

theorem State.expireAndResolve_frame (cfg : Configuration) (s : State) :
    s.keepsAllBut [.resolver, .channels, .register, .status] (s.expireAndResolve cfg) := by
  exact ((State.expireWindows_frame s).mono (by decide)).trans (State.resolve_frame _ _)

theorem State.resolverTimeState_frame (cfg : Configuration) (before : TimeState) (s : State) :
    s.keepsAllBut [.resolver, .channels, .register, .status] (s.resolverTimeState cfg before) := by
  unfold State.resolverTimeState
  split_ifs
  · exact State.expireAndResolve_frame _ s
  · exact State.resolve_frame _ s

theorem State.setWindow_frame (cfg : Configuration) (origin : Byte) (serial : Word) (slot : Nat)
    (start stop : Minute) (band : Nat) (mode : WindowMode) (s : State) :
    s.keepsAllBut [.resolver, .channels, .register, .status, .counters] (s.setWindow cfg origin serial slot start stop band mode) := by
  unfold State.setWindow
  split_ifs
  iterate 3 exact (State.count_frame _ s).mono (by decide)
  exact (((State.setResolver_frame _ s).mono (by decide)).trans
    ((State.count_frame _ _).mono (by decide))).trans ((State.expireAndResolve_frame _ _).mono (by decide))

theorem State.clearWindow_frame (cfg : Configuration) (origin : Byte) (serial : Word) (slot : Nat) (s : State) :
    s.keepsAllBut [.resolver, .channels, .register, .status, .counters] (s.clearWindow cfg origin serial slot) := by
  unfold State.clearWindow
  dsimp only
  split_ifs
  all_goals first
    | exact (State.count_frame _ s).mono (by decide)
    | exact (((State.setResolver_frame _ s).mono (by decide)).trans
        ((State.count_frame _ _).mono (by decide))).trans ((State.resolve_frame _ _).mono (by decide))

theorem State.activate_frame (cfg : Configuration) (awaited : List Moment) (p : Program) (s : State) :
    s.keepsAllBut [.meetings, .programs, .resolver, .channels, .register, .monitor, .status]
      (s.activate cfg awaited p) := by
  refine State.keepsAllBut.trans (t := (s.setPrograms { s.programs with active := some p, next := none }).noteChange)
    (((State.setPrograms_frame _ s).mono (by decide)).trans ((State.noteChange_frame _).mono (by decide)))
    (State.inSomeOrder_frame (by decide) ?_)
  intro a ha t
  simp only [List.mem_cons, List.not_mem_nil, or_false] at ha
  obtain rfl | rfl := ha
  · exact (State.resolveAwaiting_frame _ _ t).mono (by decide)
  · exact (State.reportProgram_frame _ t).mono (by decide)

theorem State.examineAwaiting_frame (cfg : Configuration) (awaited : List Moment) (s : State) :
    s.keepsAllBut [.meetings, .programs, .resolver, .channels, .register, .monitor, .status]
      (s.examineAwaiting cfg awaited) := by
  unfold State.examineAwaiting
  split
  · split_ifs
    · exact State.activate_frame _ _ _ s
    · exact .refl _ s
  · exact .refl _ s

theorem State.examineProgram_frame (cfg : Configuration) (s : State) :
    s.keepsAllBut [.meetings, .programs, .resolver, .channels, .register, .monitor, .status] (s.examineProgram cfg) :=
  State.examineAwaiting_frame _ _ s

theorem State.clockEvent_frame (cfg : Configuration) (awaited : List Moment) (e : ClockEvent) (s : State) :
    s.keepsAllBut [.meetings, .programs, .resolver, .channels, .register, .monitor, .status]
      (s.clockEvent cfg awaited e) := by
  cases e
  · exact (State.resolveAwaiting_frame _ _ s).mono (by decide)
  · exact (State.resolveAwaiting_frame _ _ s).mono (by decide)
  · exact ((State.expireWindows_frame s).mono (by decide)).trans
      ((State.resolveAwaiting_frame _ _ _).mono (by decide))
  · exact State.examineAwaiting_frame _ _ s

/-- The events of an advance leave alone what each of them leaves alone. -/
theorem State.takeClockEvents_frame (cfg : Configuration) (crossed : List Moment) (es : List ClockEvent)
    (s : State) : s.keepsAllBut [.meetings, .programs, .resolver, .channels, .register, .monitor, .status]
      (s.takeClockEvents cfg crossed es) :=
  State.takeClockEvents_keeps (P := fun t => s.keepsAllBut _ t)
    (fun a e t ht => ht.trans (State.clockEvent_frame cfg a e t)) es (.refl _ s)

theorem State.complete_frame (cfg : Configuration) (image : List Byte) (s : State) :
    s.keepsAllBut [.meetings, .programs, .resolver, .channels, .register, .monitor, .status, .counters] (s.complete cfg image) := by
  unfold State.complete
  dsimp only
  have h : s.keepsAllBut [.meetings, .programs, .resolver, .channels, .register, .monitor, .status,
      .counters] (s.setPrograms { s.programs with staging := none }) :=
    (State.setPrograms_frame _ s).mono (by decide)
  split_ifs
  iterate 3 exact h.trans ((State.count_frame _ _).mono (by decide))
  exact ((h.trans ((State.setPrograms_frame _ _).mono (by decide))).trans
    ((State.count_frame _ _).mono (by decide))).trans ((State.examineProgram_frame _ _).mono (by decide))

theorem State.collect_frame (cfg : Configuration) (origin : Byte) (payload : List Byte) (s : State) :
    s.keepsAllBut [.meetings, .programs, .resolver, .channels, .register, .monitor, .status, .counters] (s.collect cfg origin payload) := by
  unfold State.collect
  dsimp only
  split_ifs
  · exact State.complete_frame _ _ s
  · exact (State.setPrograms_frame _ s).mono (by decide)
  · exact .refl _ s

theorem State.assemblyTick_frame (s : State) :
    s.keepsAllBut [.programs, .counters] (s.assemblyTick) := by
  unfold State.assemblyTick
  split
  · exact .refl _ s
  · split_ifs
    · exact ((State.setPrograms_frame _ s).mono (by decide)).trans ((State.count_frame _ _).mono (by decide))
    · exact (State.setPrograms_frame _ s).mono (by decide)

theorem State.advanceClock_frame (s : State) :
    s.keepsAllBut [.meetings, .time, .programs, .resolver, .channels, .register, .monitor, .status] (s.advanceClock) := by
  unfold State.advanceClock
  dsimp only
  have h : s.keepsAllBut [.meetings, .time, .programs, .resolver, .channels, .register, .monitor, .status]
      (s.setTime (s.time.tick (endsSecond s.elapsed))) := (State.setTime_frame _ s).mono (by decide)
  split
  · refine h.trans (State.keepsAllBut.trans (t := (s.setTime (s.time.tick (endsSecond s.elapsed))).met) ?_
      ((State.takeClockEvents_frame _ _ _ _).mono (by decide)))
    intro p hp; cases p <;> first | rfl | exact absurd (by decide) hp
  · exact h

theorem State.reportTimeState_frame (cfg : Configuration) (before : TimeState) (s : State) :
    s.keepsAllBut [.meetings, .programs, .resolver, .channels, .register, .monitor, .status] (s.reportTimeState cfg before) := by
  unfold State.reportTimeState
  split_ifs
  · exact .refl _ s
  · refine ((State.noteChange_frame s).mono (by decide)).trans (State.inSomeOrder_frame (by decide) ?_)
    intro a ha t
    simp only [List.mem_cons, List.not_mem_nil, or_false] at ha
    obtain rfl | rfl | rfl := ha
    · exact (State.resolverTimeState_frame _ _ t).mono (by decide)
    · exact (State.examineProgram_frame _ t).mono (by decide)
    · exact (State.reportTimeInvalid_frame _ t).mono (by decide)

theorem State.timeCountdown_frame (f : Timekeeper → Timekeeper) (s : State) :
    s.keepsAllBut [.meetings, .time, .programs, .resolver, .channels, .register, .monitor, .status] (s.timeCountdown f) := by
  unfold State.timeCountdown
  split
  · exact .refl _ s
  · split_ifs
    · exact (State.setTime_frame _ s).mono (by decide)
    · exact ((State.setTime_frame _ s).mono (by decide)).trans ((State.noteChange_frame _).mono (by decide))
  · exact ((State.setTime_frame _ s).mono (by decide)).trans
      ((State.reportTimeState_frame _ _ _).mono (by decide))

theorem State.takeClasses_frame (cfg : Configuration) (b : Beacon) (s : State) :
    s.keepsAllBut [.time, .resolver, .channels, .register, .status] (s.takeClasses cfg b) := by
  unfold State.takeClasses
  dsimp only
  split_ifs
  · exact (State.setTime_frame _ s).mono (by decide)
  · exact ((State.setTime_frame _ s).mono (by decide)).trans ((State.resolve_frame _ _).mono (by decide))

/-- Each report of a beacon leaves alone what a beacon leaves alone. -/
theorem beaconReports_frame (cfg : Configuration) (b : Beacon) (d : Decision) (before after : TimeState) :
    ∀ act ∈ beaconReports cfg b d before after, ∀ t : State,
      t.keepsAllBut [.meetings, .time, .programs, .resolver, .channels, .register, .monitor, .status]
        (act t) := by
  intro a ha t
  have h : a = State.expireAndResolve cfg ∨ a = State.examineProgram cfg ∨
      a = State.resolverTimeState cfg before ∨ a = State.reportStep cfg ∨
      a = State.reportTimeInvalid cfg ∨ a = State.takeClasses cfg b := by
    unfold beaconReports at ha
    split_ifs at ha <;> simp at ha <;> tauto
  obtain rfl | rfl | rfl | rfl | rfl | rfl := h
  · exact (State.expireAndResolve_frame _ t).mono (by decide)
  · exact (State.examineProgram_frame _ t).mono (by decide)
  · exact (State.resolverTimeState_frame _ _ t).mono (by decide)
  · exact (State.reportStep_frame _ t).mono (by decide)
  · exact (State.reportTimeInvalid_frame _ t).mono (by decide)
  · exact (State.takeClasses_frame _ _ t).mono (by decide)

theorem State.countDecision_frame (d : Decision) (s : State) :
    s.keepsAllBut [.counters] (s.countDecision d) := by
  unfold State.countDecision
  split
  · exact State.count_frame _ s
  · exact State.count_frame _ s
  · exact (State.count_frame _ s).trans (State.count_frame _ _)
  · exact .refl _ s

theorem State.beacon_frame (cfg : Configuration) (b : Beacon) (age : Nat) (s : State) :
    s.keepsAllBut [.meetings, .time, .programs, .resolver, .channels, .register, .monitor, .status, .counters] (s.beacon cfg b age) := by
  unfold State.beacon
  split_ifs
  · dsimp only
    refine State.keepsAllBut.trans ?_ (State.inSomeOrder_frame (by decide) fun a ha t =>
      (beaconReports_frame _ _ _ _ _ a ha t).mono (by decide))
    have h := ((State.setTime_frame (s.time.obey cfg s.elapsed (b.estimate age)
        (s.time.judge cfg s.elapsed (b.estimate age))) s).mono
        (qs := [.meetings, .time, .programs, .resolver, .channels, .register, .monitor, .status,
          .counters]) (by decide)).trans
      ((State.countDecision_frame (s.time.judge cfg s.elapsed (b.estimate age)) _).mono (by decide))
    split_ifs
    · exact h
    · exact h.trans ((State.noteChange_frame _).mono (by decide))
  · exact (State.count_frame _ s).mono (by decide)

/-! ## The line and the Relay Engine -/

theorem State.writePlace_frame (i : Nat) (x : Option HeardEntry) (s : State) :
    s.keepsAllBut [.relay] (s.writePlace i x) := by
  exact State.setRelay_frame _ s

theorem State.setAccess_frame (a : Access) (s : State) :
    s.keepsAllBut [.relay] (s.setAccess a) := by
  exact State.setRelay_frame _ s

theorem State.openEntry_frame (cfg : Configuration) (copy : List Byte) (margin receptionEnd : Nat) (s : State) :
    s.keepsAllBut [.relay, .counters] (s.openEntry cfg copy margin receptionEnd) := by
  unfold State.openEntry
  split
  · exact (State.count_frame _ s).mono (by decide)
  · dsimp only
    split_ifs
    · exact (State.writePlace_frame _ _ s).mono (by decide)
    · exact ((State.writePlace_frame _ _ s).mono (by decide)).trans ((State.setRelay_frame _ _).mono (by decide))

theorem State.settlePlace_frame (cfg : Configuration) (i : Nat) (e : HeardEntry) (s : State) :
    s.keepsAllBut [.relay] (s.settlePlace cfg i e) := by
  exact State.writePlace_frame _ _ s

theorem State.echo_frame (cfg : Configuration) (i : Nat) (copy : List Byte) (receptionEnd : Nat) (s : State) :
    s.keepsAllBut [.relay, .counters] (s.echo cfg i copy receptionEnd) := by
  unfold State.echo
  dsimp only
  have h : s.keepsAllBut [.relay, .counters] (s.count .echoes) := (State.count_frame _ s).mono (by decide)
  split
  · exact h
  · split_ifs
    · exact (h.trans ((State.count_frame _ _).mono (by decide))).trans ((State.settlePlace_frame _ _ _ _).mono (by decide))
    · exact h.trans ((State.writePlace_frame _ _ _).mono (by decide))

theorem State.reportBusy_frame (s : State) :
    s.keepsAllBut [.relay] (s.reportBusy) := by
  unfold State.reportBusy
  split <;> first | exact .refl _ s | exact State.setAccess_frame _ s

theorem State.reportQuiet_frame (s : State) :
    s.keepsAllBut [.relay] (s.reportQuiet) := by
  unfold State.reportQuiet
  split
  · split
    · exact (State.setRelay_frame _ s).trans (State.setAccess_frame _ _)
    · exact State.setAccess_frame _ s
  · exact .refl _ s

theorem State.turnBusy_frame (s : State) :
    s.keepsAllBut [.line, .relay] (s.turnBusy) := by
  unfold State.turnBusy
  split
  · exact ((State.setLine_frame _ s).mono (by decide)).trans ((State.reportBusy_frame _).mono (by decide))
  · exact .refl _ s

theorem State.turnQuiet_frame (s : State) :
    s.keepsAllBut [.line, .relay] (s.turnQuiet) := by
  unfold State.turnQuiet
  split
  · exact ((State.setLine_frame _ s).mono (by decide)).trans ((State.reportQuiet_frame _).mono (by decide))
  · exact .refl _ s

theorem State.transmit_frame (i : Nat) (e : HeardEntry) (stored : List Byte) (receptionEnd : Nat) (s : State) :
    s.keepsAllBut [.line, .relay] (s.transmit i e stored receptionEnd) := by
  exact (((State.setLine_frame _ s).mono (by decide)).trans
    ((State.writePlace_frame _ _ _).mono (by decide))).trans ((State.setAccess_frame _ _).mono (by decide))

theorem State.offer_frame (s : State) :
    s.keepsAllBut [.line, .relay] (s.offer) := by
  unfold State.offer
  split
  · exact .refl _ s
  · split
    · split
      · split_ifs
        · exact State.transmit_frame _ _ _ _ s
        · exact (State.setAccess_frame _ s).mono (by decide)
      · exact .refl _ s
    · exact .refl _ s

theorem State.completeRelay_frame (cfg : Configuration) (s : State) :
    s.keepsAllBut [.relay, .counters] (s.completeRelay cfg) := by
  unfold State.completeRelay
  split
  · exact (State.setAccess_frame _ s).mono (by decide)
  · split
    · exact (((State.count_frame _ s).mono (by decide)).trans
        ((State.settlePlace_frame _ _ _ _).mono (by decide))).trans ((State.setAccess_frame _ _).mono (by decide))
    · exact (State.setAccess_frame _ s).mono (by decide)

/-! ## The Acceptance Filter -/

theorem State.atNamedChannels_frame (cfg : Configuration) (payload : List Byte) (f : ChannelConfig → Work → Work) (s : State) :
    s.keepsAllBut [.channels, .status, .counters] (s.atNamedChannels cfg payload f) := by
  exact State.onEachChannel_frame _ s

theorem State.routeOrder_frame (cfg : Configuration) (copy : List Byte) (s : State) :
    s.keepsAllBut [.resolver, .channels, .register, .status, .counters] (s.routeOrder cfg copy) := by
  unfold State.routeOrder
  split
  · exact (State.atNamedChannels_frame _ _ _ s).mono (by decide)
  · exact State.setWindow_frame _ _ _ _ _ _ _ _ s
  · exact State.clearWindow_frame _ _ _ _ s
  · exact (State.atNamedChannels_frame _ _ _ s).mono (by decide)
  · exact (State.atNamedChannels_frame _ _ _ s).mono (by decide)
  · exact (State.count_frame _ s).mono (by decide)

theorem State.route_frame (cfg : Configuration) (copy : List Byte) (s : State) :
    s.keepsAllBut [.meetings, .time, .programs, .resolver, .channels, .register, .monitor, .status, .counters] (s.route cfg copy) := by
  unfold State.route
  split_ifs
  · exact State.beacon_frame _ _ _ s
  · exact (State.routeOrder_frame _ _ s).mono (by decide)
  · exact .refl _ s
  · exact (State.collect_frame _ _ _ s).mono (by decide)
  · exact .refl _ s
  · exact .refl _ s

theorem State.recordAcceptance_frame (copy : List Byte) (s : State) :
    s.keepsAllBut [.origins, .counters] (s.recordAcceptance copy) := by
  exact ((State.setOrigins_frame _ s).mono (by decide)).trans ((State.count_frame _ _).mono (by decide))

theorem State.accept_frame (cfg : Configuration) (copy : List Byte) (margin : Nat) (s : State) :
    s.keepsAllBut [.meetings, .origins, .relay, .time, .programs, .resolver, .channels, .register, .monitor, .status, .counters] (s.accept cfg copy margin) := by
  refine State.inSomeOrder_frame (by decide) ?_
  intro a ha t
  simp only [List.mem_cons, List.not_mem_nil, or_false] at ha
  obtain rfl | rfl | rfl | rfl := ha
  · exact (State.recordAcceptance_frame _ t).mono (by decide)
  · exact (State.openEntry_frame _ _ _ _ t).mono (by decide)
  · exact (State.restartSilence_frame _ t).mono (by decide)
  · exact (State.route_frame _ _ t).mono (by decide)

theorem State.filter_frame (cfg : Configuration) (copy : List Byte) (margin : Nat) (s : State) :
    s.keepsAllBut [.meetings, .origins, .relay, .time, .programs, .resolver, .channels, .register, .monitor, .status, .counters] (s.filter cfg copy margin) := by
  unfold State.filter State.filterSound
  split
  · split
    · exact (State.count_frame _ s).mono (by decide)
    · split
      · exact (State.echo_frame _ _ _ _ s).mono (by decide)
      · split
        · exact (State.count_frame _ s).mono (by decide)
        · split <;> first | exact State.accept_frame _ _ _ s | exact (State.count_frame _ s).mono (by decide)
  · exact (State.count_frame _ s).mono (by decide)

end Sys2Proof.Machine
end

