-- ==== Sys2Proof/Laws/Commands.lean ====
section
/-! SUPPORT. When a command's event can come, and what a command leaves alone. -/

namespace Sys2Proof.Machine

theorem State.whenConfigured_eq {s : State} {cfg : Configuration} (h : s.runsWith cfg)
    (f : Configuration → State) : s.whenConfigured f = f cfg := by
  simp [State.whenConfigured, h.1, h.2]

theorem State.whenRunning_eq {s : State} (h : s.running = true) (t : State) : s.whenRunning t = t := by
  simp [State.whenRunning, h]

/-- Whatever holds of the unchanged state and of the effect under loaded values holds of the command. -/
theorem State.whenConfigured_cases {P : State → Prop} {s : State} {f : Configuration → State} (hs : P s)
    (h : ∀ cfg, s.runsWith cfg → P (f cfg)) : P (s.whenConfigured f) := by
  unfold State.whenConfigured
  split
  · rename_i hr
    split
    · rename_i cfg hl
      exact h cfg ⟨hr, hl⟩
    · exact hs
  · exact hs

theorem State.whenRunning_cases {P : State → Prop} {s t : State} (hs : P s) (h : s.running = true → P t) :
    P (s.whenRunning t) := by
  unfold State.whenRunning
  split
  · rename_i hr; exact h hr
  · exact hs

theorem Loader.reading_iff (l : Loader) : l.reading = true ↔ l.load = .loading ∧ l.retryAt = none := by
  simp [Loader.reading]

/-- Everything that can pass on an empty queue: an unanswered attempt's end, a tick, the retained clock's tick,
or nothing. -/
theorem State.tick_cases {P : State → Prop} {s : State}
    (unanswered : s.running = true → s.loader.reading = true → P s.endUnanswered)
    (passes : s.running = true → s.loader.reading = false →
      P (s.elapse.met.setPending (arrange s.elapse.meeting s.elapse.tickEvents)))
    (retained : s.running = false → s.bridged = true → P (s.setPending [.retainedClockTick]))
    (stopped : s.running = false → s.bridged = false → P s) : P s.tick := by
  unfold State.tick
  split_ifs with h1 h2 h3
  · exact unanswered h1 h2
  · exact passes h1 (by simpa using h2)
  · exact retained (by simpa using h1) h3
  · exact stopped (by simpa using h1) (by simpa using h3)

theorem State.endUnanswered_frame (s : State) : s.keepsAllBut [.pending, .meetings] s.endUnanswered := by
  intro p hp; cases p <;> first | rfl | exact absurd (by decide) hp

theorem State.elapse_frame (s : State) : s.keepsAllBut [.elapsed, .channels, .monitor] s.elapse := by
  intro p hp; cases p <;> first | rfl | exact absurd (by decide) hp

@[simp] theorem State.moveNoise_line (level : Rat) (s : State) : (s.moveNoise level).line =
    { s.line with noise := s.line.noise + (level - s.line.noise) / 8, cleanFrom := s.elapsed } := rfl

theorem State.moveNoise_frame (level : Rat) (s : State) : s.keepsAllBut [.line] (s.moveNoise level) :=
  State.setLine_frame _ s

theorem State.endReception_frame (s : State) : s.keepsAllBut [.line] s.endReception :=
  State.setLine_frame _ s

theorem State.endLoading_frame (l : Load) (v : Bool) (s : State) :
    s.keepsAllBut [.loader, .power, .status] (s.endLoading l v) := by
  intro p hp; cases p <;> first | rfl | exact absurd (by decide) hp

theorem State.placeChannels_frame (cfg : Configuration) (s : State) :
    s.keepsAllBut [.monitor, .channels, .status] (s.placeChannels cfg) := by
  refine State.keepsAllBut.trans (t := s.takeConditions) ?_
    ((State.onEachChannel_frame_uncounted _ (fun c u => by simp) _).mono (by decide))
  exact (State.setMonitor_frame _ s).mono (by decide)

/-- The parts of the state that finding a good image changes. -/
theorem State.foundConfigured_frame (cfg : Configuration) (noise : Rat) (v : Bool) (s : State) :
    s.keepsAllBut [.meetings, .power, .line, .origins, .relay, .time, .programs, .resolver, .channels,
      .register, .monitor, .loader, .status] (s.foundConfigured cfg noise v) := by
  unfold State.foundConfigured
  refine State.keepsAllBut.trans ?_ (State.inSomeOrder_frame (by decide) ?_)
  · intro p hp; cases p <;> first | rfl | exact absurd (by decide) hp
  · intro a ha t
    simp only [List.mem_cons, List.not_mem_nil, or_false] at ha
    obtain rfl | rfl | rfl := ha
    · exact (State.examineProgram_frame _ t).mono (by decide)
    · exact (State.placeChannels_frame _ t).mono (by decide)
    · exact (State.expireAndResolve_frame _ t).mono (by decide)

theorem State.foundUnconfigured_frame (v : Bool) (s : State) :
    s.keepsAllBut [.power, .channels, .loader, .status] (s.foundUnconfigured v) :=
  ((State.endLoading_frame _ _ s).mono (by decide)).trans
    ((State.onEachChannel_frame_uncounted _ (fun _ _ => ⟨rfl, rfl⟩) _).mono (by decide))

theorem State.failAttempt_frame (v : Bool) (s : State) :
    s.keepsAllBut [.power, .channels, .loader, .status] (s.failAttempt v) := by
  unfold State.failAttempt
  split_ifs
  · intro p hp; cases p <;> first | rfl | exact absurd (by decide) hp
  · exact State.foundUnconfigured_frame _ s

theorem State.judgeAttempt_frame (a : StoreAnswer) (noise : Rat) (v : Bool) (s : State) :
    s.keepsAllBut [.meetings, .power, .line, .origins, .relay, .time, .programs, .resolver, .channels,
      .register, .monitor, .loader, .status] (s.judgeAttempt a noise v) := by
  have hl : ∀ (u : State) (x : Loader), u.keepsAllBut [.meetings, .power, .line, .origins, .relay, .time,
      .programs, .resolver, .channels, .register, .monitor, .loader, .status] (u.setLoader x) := by
    intro u x p hp; cases p <;> first | rfl | exact absurd (by decide) hp
  unfold State.judgeAttempt State.judgeImage
  dsimp only
  split
  · split_ifs
    · exact ((hl _ _).trans (hl _ _)).trans (State.foundConfigured_frame _ _ _ _)
    · exact ((hl _ _).trans (hl _ _)).trans ((State.foundUnconfigured_frame _ _).mono (by decide))
    · exact ((hl _ _).trans (hl _ _)).trans ((State.failAttempt_frame _ _).mono (by decide))
  all_goals exact (hl _ _).trans ((State.failAttempt_frame _ _).mono (by decide))

theorem State.statusSecond_frame (s : State) : s.keepsAllBut [.status] s.statusSecond := by
  unfold State.statusSecond
  split_ifs <;> (intro p hp; cases p <;> first | rfl | exact absurd (by decide) hp)

/-! ## When a restart, and the end of an emission, may come -/

theorem Power.restartsCold_iff (p : Power) :
    p.restartsCold = true ↔ p.nresetLow = true ∨ p.vddUp = false ∧ p.mark = false := by
  simp [Power.restartsCold]

theorem Power.restartsWarm_iff (p : Power) :
    p.restartsWarm = true ↔ p.vddUp = false ∧ p.mark = true ∧ p.nresetLow = false := by
  simp [Power.restartsWarm, and_assoc]

theorem Emission.over_iff (e : Emission) (now : Nat) : e.over now = true ↔ e.startedAt + 6 ≤ now := by
  rw [Emission.over, decide_eq_true_iff]
  show 560 ≤ 96 * (now - e.startedAt) ↔ e.startedAt + 6 ≤ now
  omega

end Sys2Proof.Machine
end

