-- ==== Sys2Proof/Laws/Relaying.lean ====
section
/-! SUPPORT. The least-keyed place of a list, and with it the entry an offer chooses (R53) and the place a
new entry takes (R43); what is due at a tick (R49), and what a clean tick is (R8). -/

namespace Sys2Proof.Machine

theorem leastKeyed_none_iff {α : Type} (key : α → Option Nat) (xs : List α) :
    leastKeyed key xs = none ↔ ∀ x ∈ xs, key x = none := by
  induction xs with
  | nil => simp [leastKeyed]
  | cons x xs ih =>
    simp only [leastKeyed, List.forall_mem_cons, ← ih]
    cases key x <;> cases leastKeyed key xs <;> simp
    split <;> simp

/-- The place found has the key found; a place before it has a greater key or none, and a place after it
has no smaller one. -/
theorem leastKeyed_spec {α : Type} (key : α → Option Nat) (xs : List α) {i k : Nat}
    (h : leastKeyed key xs = some (i, k)) :
    (∃ x, xs[i]? = some x ∧ key x = some k) ∧
    ∀ j x k', xs[j]? = some x → key x = some k' → k < k' ∨ k = k' ∧ i ≤ j := by
  induction xs generalizing i k with
  | nil => simp [leastKeyed] at h
  | cons x xs ih =>
    simp only [leastKeyed] at h
    cases hx : key x with
    | none =>
      simp only [hx, Option.map_eq_some_iff, Prod.mk.injEq] at h
      obtain ⟨⟨a, b⟩, hr, rfl, rfl⟩ := h
      obtain ⟨h1, h2⟩ := ih hr
      refine ⟨by simpa using h1, fun j y k' hj hk => ?_⟩
      cases j with
      | zero => simp at hj; subst hj; simp [hx] at hk
      | succ j => have := h2 j y k' (by simpa using hj) hk; omega
    | some k₀ =>
      cases hr : leastKeyed key xs with
      | none =>
        simp only [hx, hr, Option.some.injEq, Prod.mk.injEq] at h
        obtain ⟨rfl, rfl⟩ := h
        refine ⟨⟨x, by simp, hx⟩, fun j y k' hj hk => ?_⟩
        cases j with
        | zero => simp at hj; subst hj; simp [hx] at hk; omega
        | succ j =>
          have := (leastKeyed_none_iff key xs).1 hr y (List.mem_of_getElem? (by simpa using hj))
          simp [this] at hk
      | some p =>
        obtain ⟨a, b⟩ := p
        obtain ⟨h1, h2⟩ := ih hr
        simp only [hx, hr] at h
        split at h
        · simp only [Option.some.injEq, Prod.mk.injEq] at h
          obtain ⟨rfl, rfl⟩ := h
          refine ⟨⟨x, by simp, hx⟩, fun j y k' hj hk => ?_⟩
          cases j with
          | zero => simp at hj; subst hj; simp [hx] at hk; omega
          | succ j => have := h2 j y k' (by simpa using hj) hk; omega
        · simp only [Option.some.injEq, Prod.mk.injEq] at h
          obtain ⟨rfl, rfl⟩ := h
          refine ⟨by simpa using h1, fun j y k' hj hk => ?_⟩
          cases j with
          | zero => simp at hj; subst hj; simp [hx] at hk; omega
          | succ j => have := h2 j y k' (by simpa using hj) hk; omega

/-- A place whose key no other place undercuts is the least-keyed one. -/
theorem leastKeyed_of_least {α : Type} (key : α → Option Nat) (xs : List α) {i k : Nat} {x : α}
    (hx : xs[i]? = some x) (hk : key x = some k)
    (h : ∀ j y k', xs[j]? = some y → key y = some k' → k < k' ∨ k = k' ∧ i ≤ j) :
    leastKeyed key xs = some (i, k) := by
  cases hr : leastKeyed key xs with
  | none =>
    have := (leastKeyed_none_iff key xs).1 hr x (List.mem_of_getElem? hx)
    simp [this] at hk
  | some p =>
    obtain ⟨a, b⟩ := p
    obtain ⟨⟨y, hy, hky⟩, h2⟩ := leastKeyed_spec key xs hr
    have h3 := h a y b hy hky
    have h4 := h2 i x k hx hk
    have : a = i ∧ b = k := by omega
    simp [this]

theorem entryAt_eq_some {heard : List (Option HeardEntry)} {i : Nat} {e : HeardEntry} :
    entryAt heard i = some e ↔ heard[i]? = some (some e) := by
  simp only [entryAt, List.getD_eq_getElem?_getD]
  cases heard[i]? <;> simp

theorem entryAt_set (heard : List (Option HeardEntry)) (i j : Nat) (x : Option HeardEntry) :
    entryAt (heard.set i x) j = if j = i ∧ i < heard.length then x else entryAt heard j := by
  simp only [entryAt, List.getD_eq_getElem?_getD, List.getElem?_set]
  by_cases hij : i = j
  · subst hij
    by_cases hl : i < heard.length <;> simp [hl]
  · simp [hij, Ne.symm hij]

theorem entryAt_lt {heard : List (Option HeardEntry)} {i : Nat} {e : HeardEntry}
    (h : entryAt heard i = some e) : i < heard.length := by
  rw [entryAt_eq_some] at h
  exact (List.getElem?_eq_some_iff.1 h).1

theorem dueKey_eq_some {now k : Nat} {slot : Option HeardEntry} :
    dueKey now slot = some k ↔
      ∃ e copy received, slot = some e ∧ e.relay = .pending copy received k ∧ k ≤ now := by
  cases slot with
  | none => simp [dueKey]
  | some e =>
    simp only [dueKey, Option.bind_some]
    cases h : e.relay <;> simp [h]
    omega

/-- The chosen entry is due, and no due entry comes before it (R53). -/
theorem chosenEntry_eq {now : Nat} {heard : List (Option HeardEntry)} {i : Nat} {e : HeardEntry}
    {copy : List Byte} {received tick : Nat} (he : entryAt heard i = some e)
    (hr : e.relay = .pending copy received tick) (hd : tick ≤ now)
    (h : ∀ j f c r d, entryAt heard j = some f → f.relay = .pending c r d → d ≤ now →
      tick < d ∨ tick = d ∧ i ≤ j) : chosenEntry now heard = some i := by
  rw [entryAt_eq_some] at he
  have := leastKeyed_of_least (dueKey now) heard he (dueKey_eq_some.2 ⟨e, copy, received, rfl, hr, hd⟩)
    (fun j y k' hj hk => by
      obtain ⟨f, c, r, rfl, hf, hk⟩ := dueKey_eq_some.1 hk
      exact h j f c r k' (entryAt_eq_some.2 hj) hf hk)
  simp [chosenEntry, this]

theorem chosenEntry_none {now : Nat} {heard : List (Option HeardEntry)} :
    chosenEntry now heard = none ↔ ∀ i e copy received due, entryAt heard i = some e →
      e.relay = .pending copy received due → now < due := by
  simp only [chosenEntry, Option.map_eq_none_iff, leastKeyed_none_iff]
  constructor
  · intro h i e copy received due he hr
    by_contra hd
    have := h _ (List.mem_of_getElem? (entryAt_eq_some.1 he))
    rw [dueKey_eq_some.2 ⟨e, copy, received, rfl, hr, by omega⟩] at this
    cases this
  · intro h slot hs
    by_contra hk
    obtain ⟨k, hk⟩ := Option.ne_none_iff_exists'.1 hk
    obtain ⟨e, c, r, rfl, hr, hd⟩ := dueKey_eq_some.1 hk
    obtain ⟨i, hi⟩ := List.getElem?_of_mem hs
    have := h i e c r k (entryAt_eq_some.2 hi) hr
    omega

/-! ## What is due -/

theorem State.le_dueBy (s : State) (tick : Nat) : tick ≤ s.dueBy ↔ s.dueAt tick := by
  simp only [State.dueBy, State.dueAt]
  omega

theorem State.chosenEntry_dueBy_none (s : State) :
    chosenEntry s.dueBy s.relay.heard = none ↔ ¬ s.someEntryDue := by
  rw [chosenEntry_none]
  constructor
  · rintro h ⟨i, e, copy, received, due, he, hr, hd⟩
    have := h i e copy received due he hr
    have := (s.le_dueBy due).2 hd
    omega
  · intro h i e copy received due he hr
    by_contra hn
    exact h ⟨i, e, copy, received, due, he, hr, (s.le_dueBy due).1 (by omega)⟩

theorem State.placeDue_iff (i : Nat) (s : State) : s.placeDue i = true ↔
    ∃ e copy received due, entryAt s.relay.heard i = some e ∧ e.relay = .pending copy received due ∧
      due ≤ s.elapsed := by
  rw [State.placeDue, Option.isSome_iff_exists]
  constructor
  · rintro ⟨k, hk⟩
    obtain ⟨e, copy, received, he, hr, hd⟩ := dueKey_eq_some.1 hk
    exact ⟨e, copy, received, k, he, hr, hd⟩
  · rintro ⟨e, copy, received, due, he, hr, hd⟩
    exact ⟨due, dueKey_eq_some.2 ⟨e, copy, received, he, hr, hd⟩⟩

@[simp] theorem State.fallDue_dueBy (s : State) : s.fallDue.dueBy = s.elapsed := by
  simp [State.dueBy, State.fallDue]

theorem State.fallDue_frame (s : State) : s.keepsAllBut [.relay] s.fallDue := State.setRelay_frame _ s

/-! ## What a clean tick is -/

theorem Receiver.startedBefore_eq_false (now : Nat) (r : Receiver) : r.startedBefore now = false ↔
    ∀ bytes sum start, r = .receiving bytes sum start → now ≤ start := by
  cases r <;> simp [Receiver.startedBefore]

theorem TransmitSlot.startedBefore_eq_false (now : Nat) (x : TransmitSlot) : x.startedBefore now = false ↔
    ∀ copy start, x = .sending copy start → now ≤ start := by
  cases x <;> simp [TransmitSlot.startedBefore]

theorem State.tickWasClean_iff (s : State) (level : Rat) : s.tickWasClean level = true ↔
    s.line.cleanFrom < s.elapsed ∧ s.line.carrierAt ≠ some (s.elapsed - 1) ∧
    (∀ bytes sum start, s.line.receiver = .receiving bytes sum start → s.elapsed ≤ start) ∧
    (∀ copy start, s.line.slot = .sending copy start → s.elapsed ≤ start) ∧ level < 0 := by
  rw [← Receiver.startedBefore_eq_false, ← TransmitSlot.startedBefore_eq_false]
  have h : s.line.cleanFrom < s.elapsed →
      ((s.line.carrierAt.any fun t => t + 1 = s.elapsed) = false ↔
        s.line.carrierAt ≠ some (s.elapsed - 1)) := by
    intro hl
    cases s.line.carrierAt with
    | none => simp
    | some t => simp; omega
  simp only [State.tickWasClean, Bool.and_eq_true, decide_eq_true_eq, Bool.not_eq_true', and_assoc]
  exact and_congr_right fun hl => and_congr_left' (h hl)

theorem Line.taken_iff (now : Nat) (l : Line) : l.taken now = true ↔
    l.carrierAt = some now ∨ (∃ bytes sum start, l.receiver = .receiving bytes sum start) ∨
      l.slot ≠ .idle := by
  cases h : l.receiver <;> simp [Line.taken, Receiver.busy, h]

end Sys2Proof.Machine
end

