-- ==== Sys2Proof/Laws/Resolution.lean ====
section
/-! SUPPORT. What a resolution leaves behind: the resolved band and the register index of the present moment
(R109 to R115). Every operation that changes what they are worked out from resolves, so they stay those of
the present moment through each of the operations below, whatever order they are taken in. -/

namespace Sys2Proof.Machine

/-- The resolved band and the register index are those of the present moment. -/
def State.resolved (cfg : Configuration) (s : State) : Prop :=
  s.resolver.band = bandNow s.programs.active s.time s.resolver.windows ∧
  s.register = registerIndex cfg s.programs.active s.time s.resolver.windows ∧
  s.resolver.index = s.register

/-- An event that keeps what each event of a meeting keeps, and makes `P` of it, leaves `P` behind. -/
theorem State.inSomeOrder_makes {P Q : State → Prop} {s : State} (pre post : List (State → State))
    (act : State → State) (hP : ∀ a ∈ pre ++ act :: post, ∀ s, P s → P (a s))
    (hQ : ∀ a ∈ pre ++ act :: post, ∀ s, Q s → Q (a s)) (makes : ∀ s, Q s → P (act s)) (hs : Q s.met) :
    P (s.inSomeOrder (pre ++ act :: post)) := by
  have hp := arrange_perm s.meeting (pre ++ act :: post)
  obtain ⟨l, r, hlr⟩ := List.append_of_mem (hp.mem_iff.2 (by simp : act ∈ pre ++ act :: post))
  unfold State.inSomeOrder
  rw [hlr, List.foldl_append, List.foldl_cons]
  have hm : ∀ a ∈ l ++ act :: r, a ∈ pre ++ act :: post := fun a ha => hp.mem_iff.1 (hlr ▸ ha)
  refine foldl_acts_keep r (fun a ha => hP a (hm a ?_)) _ (makes _ ?_)
  · simp [ha]
  · exact foldl_acts_keep l (fun a ha => hQ a (hm a (by simp [ha]))) _ hs

theorem State.handBand_band (cfg : Configuration) (b : Option ResolvedBand) (s : State) :
    (s.handBand cfg b).resolver = { s.resolver with band := b } := by
  unfold State.handBand
  split_ifs with h
  · rw [← h]
  · simp

theorem State.handIndex_resolver (n : Nat) (s : State) :
    (s.handIndex n).resolver = { s.resolver with index := n } := by
  unfold State.handIndex
  split_ifs with h
  · rw [← h]
  · rfl

theorem State.handIndex_register (n : Nat) (s : State) (h : s.resolver.index = s.register) :
    (s.handIndex n).register = n := by
  unfold State.handIndex
  split_ifs with h'
  · rw [← h, h']
  · rfl

theorem State.resolveOver_resolver (cfg : Configuration) (windows : List (Option Window)) (s : State) :
    (s.resolveOver cfg windows).resolver =
      { s.resolver with band := bandNow s.programs.active s.time windows
                        index := registerIndex cfg s.programs.active s.time windows } := by
  unfold State.resolveOver
  rw [State.handIndex_resolver, State.handBand_band]

theorem State.resolve_resolver (cfg : Configuration) (s : State) :
    (s.resolve cfg).resolver =
      { s.resolver with band := bandNow s.programs.active s.time s.resolver.windows
                        index := registerIndex cfg s.programs.active s.time s.resolver.windows } :=
  State.resolveOver_resolver cfg _ s

theorem State.resolveOver_register (cfg : Configuration) (windows : List (Option Window)) (s : State)
    (h : s.resolver.index = s.register) :
    (s.resolveOver cfg windows).register = registerIndex cfg s.programs.active s.time windows := by
  unfold State.resolveOver
  apply State.handIndex_register
  rw [State.handBand_band]
  have := State.handBand_frame cfg (bandNow s.programs.active s.time windows) s .register (by decide)
  exact h.trans this.symm

theorem State.resolveOver_index {cfg : Configuration} {windows : List (Option Window)} {s : State}
    (h : s.resolver.index = s.register) :
    (s.resolveOver cfg windows).resolver.index = (s.resolveOver cfg windows).register := by
  rw [State.resolveOver_resolver, State.resolveOver_register cfg windows s h]

@[simp] theorem unstarted_nil (windows : List (Option Window)) : unstarted [] windows = windows := by
  unfold unstarted
  refine (List.map_congr_left fun slot _ => ?_).trans (List.map_id windows)
  cases slot <;> simp [Option.filter]

@[simp] theorem State.resolveAwaiting_nil (cfg : Configuration) (s : State) :
    s.resolveAwaiting cfg [] = s.resolve cfg := by
  simp [State.resolveAwaiting, State.resolve]

theorem State.resolveAwaiting_windows (cfg : Configuration) (awaited : List Moment) (s : State) :
    (s.resolveAwaiting cfg awaited).resolver.windows = s.resolver.windows := by
  simp [State.resolveAwaiting, State.resolveOver_resolver]

theorem State.resolveAwaiting_programs (cfg : Configuration) (awaited : List Moment) (s : State) :
    (s.resolveAwaiting cfg awaited).programs = s.programs :=
  State.resolveAwaiting_frame cfg awaited s .programs (by decide)

theorem State.resolve_time (cfg : Configuration) (s : State) : (s.resolve cfg).time = s.time :=
  State.resolve_frame cfg s .time (by decide)

theorem State.resolve_programs (cfg : Configuration) (s : State) : (s.resolve cfg).programs = s.programs :=
  State.resolve_frame cfg s .programs (by decide)

/-- A resolution leaves the band and the index of the present moment. -/
theorem State.resolve_resolved (cfg : Configuration) (s : State) (h : s.resolver.index = s.register) :
    (s.resolve cfg).resolved cfg := by
  have hr : (s.resolve cfg).register = registerIndex cfg s.programs.active s.time s.resolver.windows :=
    State.resolveOver_register cfg _ s h
  refine ⟨?_, ?_, ?_⟩
  · simp [State.resolve_resolver, State.resolve_time, State.resolve_programs]
  · simp [State.resolve_resolver, State.resolve_time, State.resolve_programs, hr]
  · simp [State.resolve_resolver, hr]

/-- Whatever leaves the resolver, the programs, the clock and the register alone keeps a resolution. -/
theorem State.resolved_of_frame {cfg : Configuration} {ps : List Part} {s t : State}
    (h : s.keepsAllBut ps t) (hp : ∀ p ∈ [Part.resolver, .programs, .time, .register], p ∉ ps)
    (hs : s.resolved cfg) : t.resolved cfg := by
  have h1 : t.resolver = s.resolver := h .resolver (hp _ (by simp))
  have h2 : t.programs = s.programs := h .programs (hp _ (by simp))
  have h3 : t.time = s.time := h .time (hp _ (by simp))
  have h4 : t.register = s.register := h .register (hp _ (by simp))
  unfold State.resolved
  rw [h1, h2, h3, h4]
  exact hs

theorem State.reportTimeInvalid_resolved {cfg : Configuration} {s : State} (hs : s.resolved cfg) :
    (s.reportTimeInvalid cfg).resolved cfg :=
  State.resolved_of_frame (State.reportTimeInvalid_frame cfg s) (by decide) hs

theorem State.reportProgram_resolved {cfg : Configuration} {s : State} (hs : s.resolved cfg) :
    (s.reportProgram cfg).resolved cfg :=
  State.resolved_of_frame (State.reportProgram_frame cfg s) (by decide) hs

theorem State.reportStep_resolved {cfg : Configuration} {s : State} (hs : s.resolved cfg) :
    (s.reportStep cfg).resolved cfg :=
  State.resolved_of_frame (State.reportStep_frame cfg s) (by decide) hs

theorem State.resolve_keeps_resolved {cfg : Configuration} {s : State} (hs : s.resolved cfg) :
    (s.resolve cfg).resolved cfg := State.resolve_resolved cfg s hs.2.2

theorem State.expireWindows_index (s : State) :
    s.expireWindows.resolver.index = s.resolver.index ∧ s.expireWindows.register = s.register := by
  unfold State.expireWindows
  split_ifs <;> simp

theorem State.expireAndResolve_resolved {cfg : Configuration} {s : State}
    (h : s.resolver.index = s.register) : (s.expireAndResolve cfg).resolved cfg := by
  apply State.resolve_resolved
  rw [(State.expireWindows_index s).1, (State.expireWindows_index s).2, h]

theorem State.reportProgram_index {cfg : Configuration} {s : State} (hs : s.resolver.index = s.register) :
    (s.reportProgram cfg).resolver.index = (s.reportProgram cfg).register := by
  have hf := State.reportProgram_frame cfg s
  have h1 : (s.reportProgram cfg).resolver = s.resolver := hf .resolver (by decide)
  have h2 : (s.reportProgram cfg).register = s.register := hf .register (by decide)
  rw [h1, h2, hs]

theorem State.activate_index {cfg : Configuration} {awaited : List Moment} {p : Program} {s : State}
    (h : s.resolver.index = s.register) :
    (s.activate cfg awaited p).resolver.index = (s.activate cfg awaited p).register := by
  refine State.inSomeOrder_keeps (P := fun t => t.resolver.index = t.register) ?_ (by simpa using h)
  intro a ha t ht
  simp only [List.mem_cons, List.not_mem_nil, or_false] at ha
  rcases ha with rfl | rfl
  · exact State.resolveOver_index ht
  · exact State.reportProgram_index ht

/-- What a meeting of the resolver and the monitor does after an activation. -/
theorem State.activate_resolved {cfg : Configuration} {p : Program} {s : State}
    (h : s.resolver.index = s.register) : (s.activate cfg [] p).resolved cfg := by
  unfold State.activate
  refine State.inSomeOrder_makes (P := fun t => t.resolved cfg) (Q := fun t => t.resolver.index = t.register)
    [] [State.reportProgram cfg] (State.resolveAwaiting cfg []) ?_ ?_
    (fun t ht => by rw [State.resolveAwaiting_nil]; exact State.resolve_resolved cfg t ht) ?_
  · intro a ha t ht
    simp only [List.nil_append, List.mem_cons, List.not_mem_nil, or_false] at ha
    rcases ha with rfl | rfl
    · rw [State.resolveAwaiting_nil]; exact State.resolve_keeps_resolved ht
    · exact State.reportProgram_resolved ht
  · intro a ha t ht
    simp only [List.nil_append, List.mem_cons, List.not_mem_nil, or_false] at ha
    rcases ha with rfl | rfl
    · exact State.resolveOver_index ht
    · exact State.reportProgram_index ht
  · simpa using h

/-- What an examination keeps: it activates the pending program, or nothing happens. -/
theorem State.examineAwaiting_keeps {P : State → Prop} {cfg : Configuration} {awaited : List Moment}
    {s : State} (hs : P s) (h : ∀ p, P (s.activate cfg awaited p)) : P (s.examineAwaiting cfg awaited) := by
  unfold State.examineAwaiting
  split
  · split_ifs
    · exact h _
    · exact hs
  · exact hs

theorem State.examineProgram_resolved {cfg : Configuration} {s : State} (hs : s.resolved cfg) :
    (s.examineProgram cfg).resolved cfg :=
  State.examineAwaiting_keeps (P := fun t => t.resolved cfg) hs fun _ => State.activate_resolved hs.2.2

/-- An examination keeps the index that is handed the index that is driven. -/
theorem State.examineAwaiting_index {cfg : Configuration} {awaited : List Moment} {s : State}
    (hs : s.resolver.index = s.register) :
    (s.examineAwaiting cfg awaited).resolver.index = (s.examineAwaiting cfg awaited).register :=
  State.examineAwaiting_keeps (P := fun t => t.resolver.index = t.register) hs
    fun _ => State.activate_index hs

theorem State.activate_programs (cfg : Configuration) (awaited : List Moment) (p : Program) (s : State) :
    (s.activate cfg awaited p).programs = { s.programs with active := some p, next := none } := by
  unfold State.activate
  refine (State.inSomeOrder_none (State.programs) _ ?_).trans (by simp)
  intro a ha t
  simp only [List.mem_cons, List.not_mem_nil, or_false] at ha
  rcases ha with rfl | rfl
  · exact State.resolveAwaiting_programs cfg _ t
  · exact State.reportProgram_frame cfg t .programs (by decide)

theorem State.activate_windows (cfg : Configuration) (awaited : List Moment) (p : Program) (s : State) :
    (s.activate cfg awaited p).resolver.windows = s.resolver.windows := by
  unfold State.activate
  refine (State.inSomeOrder_none (fun t => t.resolver.windows) _ ?_).trans (by simp)
  intro a ha t
  simp only [List.mem_cons, List.not_mem_nil, or_false] at ha
  rcases ha with rfl | rfl
  · exact State.resolveAwaiting_windows cfg _ t
  · have : (t.reportProgram cfg).resolver = t.resolver := State.reportProgram_frame cfg t .resolver (by decide)
    rw [this]

theorem Program.due_iff (p : Program) (t : Timekeeper) : p.due t = true ↔
    p.activation = ⟨0, 0⟩ ∨ t.state.valid = true ∧ t.clock.hasReached p.activation = true := by
  simp [Program.due, Program.onCompletion]

/-- An examination of the pending program (R95, R96). -/
theorem State.examineAwaiting_programs (cfg : Configuration) (awaited : List Moment) (s : State) :
    (s.examineAwaiting cfg awaited).programs = s.programs.examined s.time := by
  unfold State.examineAwaiting Collector.examined
  cases h : s.programs.next with
  | none => simp
  | some p =>
    dsimp only
    by_cases hd : p.due s.time = true
    · rw [if_pos hd, if_pos ((p.due_iff s.time).1 hd), State.activate_programs]
    · rw [if_neg hd, if_neg (mt (p.due_iff s.time).2 hd)]

theorem State.examineProgram_programs (cfg : Configuration) (s : State) :
    (s.examineProgram cfg).programs = s.programs.examined s.time :=
  State.examineAwaiting_programs cfg [] s

theorem Collector.examined_examined (t : Timekeeper) (k : Collector) :
    (k.examined t).examined t = k.examined t := by
  unfold Collector.examined
  cases h : k.next with
  | none => simp [h]
  | some p => by_cases h' : p.activation = ⟨0, 0⟩ ∨ t.state.valid = true ∧ t.clock.hasReached p.activation = true
              · simp only [if_pos h']
              · simp only [if_neg h', h]

theorem State.examineAwaiting_windows (cfg : Configuration) (awaited : List Moment) (s : State) :
    (s.examineAwaiting cfg awaited).resolver.windows = s.resolver.windows :=
  State.examineAwaiting_keeps (P := fun t => t.resolver.windows = s.resolver.windows) rfl
    fun p => State.activate_windows cfg awaited p s

theorem State.examineProgram_windows (cfg : Configuration) (s : State) :
    (s.examineProgram cfg).resolver.windows = s.resolver.windows := State.examineAwaiting_windows cfg [] s

theorem State.resolve_windows (cfg : Configuration) (s : State) :
    (s.resolve cfg).resolver.windows = s.resolver.windows := by simp [State.resolve_resolver]

/-- An expiry frees every window whose end the clock has reached, in a valid time state (R107). -/
theorem State.expireWindows_windows (s : State) :
    s.expireWindows.resolver.windows =
      if s.time.state.valid then freeExpired s.time.clock s.resolver.windows else s.resolver.windows := by
  unfold State.expireWindows
  split_ifs <;> simp

theorem State.expireAndResolve_windows (cfg : Configuration) (s : State) :
    (s.expireAndResolve cfg).resolver.windows =
      if s.time.state.valid then freeExpired s.time.clock s.resolver.windows else s.resolver.windows := by
  unfold State.expireAndResolve
  rw [State.resolve_windows, State.expireWindows_windows]

/-! ## The events of an advance of the clock (R120) -/

theorem freeExpired_freeExpired (clock : Moment) (windows : List (Option Window)) :
    freeExpired clock (freeExpired clock windows) = freeExpired clock windows := by
  unfold freeExpired
  rw [List.map_map]
  refine List.map_congr_left fun slot _ => ?_
  rcases slot with - | w
  · rfl
  · by_cases h : clock.hasReached w.stop.moment = true <;> simp [h]

theorem State.clockEvent_time (cfg : Configuration) (awaited : List Moment) (e : ClockEvent) (s : State) :
    (s.clockEvent cfg awaited e).time = s.time := State.clockEvent_frame cfg awaited e s .time (by decide)

theorem State.clockEvent_index {cfg : Configuration} {awaited : List Moment} {e : ClockEvent} {s : State}
    (hs : s.resolver.index = s.register) :
    (s.clockEvent cfg awaited e).resolver.index = (s.clockEvent cfg awaited e).register := by
  cases e
  · exact State.resolveOver_index hs
  · exact State.resolveOver_index hs
  · refine State.resolveOver_index ?_
    rw [(State.expireWindows_index s).1, (State.expireWindows_index s).2, hs]
  · exact State.examineAwaiting_index hs

/-- Each event but an activation resolves; an activation keeps a resolution. No window start is awaited. -/
theorem State.clockEvent_resolved {cfg : Configuration} {e : ClockEvent} {s : State}
    (hs : s.resolver.index = s.register) (h : e ≠ .activation ∨ s.resolved cfg) :
    (s.clockEvent cfg [] e).resolved cfg := by
  cases e <;> simp only [State.clockEvent, State.resolveAwaiting_nil]
  · exact State.resolve_resolved cfg s hs
  · exact State.resolve_resolved cfg s hs
  · exact State.expireAndResolve_resolved hs
  · exact State.examineProgram_resolved (h.resolve_left fun h => h rfl)

/-- After the events of an advance, in any order, the band and the index are those of the present moment, if
one of the events is more than an examination or they were so before. -/
theorem State.takeClockEvents_resolved {cfg : Configuration} {crossed : List Moment} (es : List ClockEvent)
    {s : State} (hs : s.resolver.index = s.register) (hn : es.Nodup)
    (h : (∃ e ∈ es, e ≠ .activation) ∨ s.resolved cfg) : (s.takeClockEvents cfg crossed es).resolved cfg := by
  induction es generalizing s with
  | nil => exact h.resolve_left (by simp)
  | cons e later ih =>
    rw [List.nodup_cons] at hn
    refine ih (State.clockEvent_index hs) hn.2 ?_
    by_cases hw : later.contains ClockEvent.windowStart = true
    · exact .inl ⟨.windowStart, List.contains_iff_mem.1 hw, by decide⟩
    · rw [if_neg hw]
      rcases h with ⟨d, hd, hne⟩ | h
      · rcases List.mem_cons.1 hd with rfl | hd
        · exact .inr (State.clockEvent_resolved hs (.inl hne))
        · exact .inl ⟨d, hd, hne⟩
      · exact .inr (State.clockEvent_resolved hs (.inr h))

theorem State.takeClockEvents_windows {cfg : Configuration} {crossed : List Moment} (es : List ClockEvent)
    (s : State) : (s.takeClockEvents cfg crossed es).resolver.windows =
      if .windowEnd ∈ es ∧ s.time.state.valid = true then freeExpired s.time.clock s.resolver.windows
      else s.resolver.windows := by
  induction es generalizing s with
  | nil => simp [State.takeClockEvents]
  | cons e later ih =>
    rw [State.takeClockEvents, ih, State.clockEvent_time]
    have hw : ∀ a, (s.clockEvent cfg a e).resolver.windows =
        if e = .windowEnd ∧ s.time.state.valid = true then freeExpired s.time.clock s.resolver.windows
        else s.resolver.windows := by
      intro a
      cases e <;> simp only [State.clockEvent, State.resolveAwaiting_windows, State.examineAwaiting_windows,
        State.expireWindows_windows, reduceCtorEq, false_and, if_false, true_and]
    rw [hw]
    by_cases hv : s.time.state.valid = true <;> by_cases he : e = .windowEnd <;>
      by_cases hm : ClockEvent.windowEnd ∈ later <;>
      simp [hv, he, hm, freeExpired_freeExpired, eq_comm (a := ClockEvent.windowEnd)]

theorem State.takeClockEvents_programs {cfg : Configuration} {crossed : List Moment} (es : List ClockEvent)
    (s : State) : (s.takeClockEvents cfg crossed es).programs =
      if .activation ∈ es then s.programs.examined s.time else s.programs := by
  induction es generalizing s with
  | nil => simp [State.takeClockEvents]
  | cons e later ih =>
    rw [State.takeClockEvents, ih, State.clockEvent_time]
    have hp : ∀ a, (s.clockEvent cfg a e).programs =
        if e = .activation then s.programs.examined s.time else s.programs := by
      intro a
      cases e <;> simp only [State.clockEvent, State.resolveAwaiting_programs, State.examineAwaiting_programs,
        reduceCtorEq, if_false, if_true]
      exact State.expireWindows_frame s .programs (by decide)
    rw [hp]
    by_cases he : e = .activation <;> by_cases hm : ClockEvent.activation ∈ later <;>
      simp [he, hm, Collector.examined_examined, eq_comm (a := ClockEvent.activation)]

end Sys2Proof.Machine
end

