-- ==== Sys2Proof/Laws/Settled.lean ====
section
/-! SUPPORT. What each event at a channel keeps of a settled channel (R143, R157 to R161, R163, R172 to R174): its
level last handed, its output's current request and its channel state go on agreeing. -/

namespace Sys2Proof.Machine

/-- The level last handed is the output's current request, and no deferred request equals the output. -/
def ChannelUnit.tracks (u : ChannelUnit) : Prop :=
  u.handed = some u.currentRequest ∧ u.deferred ≠ some u.output

theorem ChannelUnit.requested_congr (cc : ChannelConfig) {u v : ChannelUnit} (h1 : v.state = u.state)
    (h2 : v.override.imposed = u.override.imposed) (h3 : v.band = u.band) :
    v.requested cc = u.requested cc := by
  simp only [ChannelUnit.requested, ChannelUnit.bandAction, ChannelUnit.bandCritical, h1, h2, h3]

theorem ChannelUnit.effective_congr (cc : ChannelConfig) (active : Conditions) {u v : ChannelUnit}
    (h : v.forced = u.forced) : v.effective cc active = u.effective cc active := by
  simp only [ChannelUnit.effective, h]

theorem ChannelUnit.settled_used {cc : ChannelConfig} {active : Conditions} {u : ChannelUnit}
    (hc : cc.used = true) : u.settled cc active ↔ u.handed = some (u.requested cc) ∧ u.tracks ∧
      (u.state = .fallbackHold ↔ u.effective cc active = true) := by
  simp only [ChannelUnit.settled, hc, if_true, ChannelUnit.tracks]
  constructor
  · rintro ⟨h1, h2, h3, h4⟩; exact ⟨h1, ⟨h1.trans (by rw [h2]), h3⟩, h4⟩
  · rintro ⟨h1, ⟨h2, h3⟩, h4⟩
    exact ⟨h1, by rw [h1] at h2; exact (Option.some.inj h2).symm, h3, h4⟩

theorem ChannelUnit.settled_unused {cc : ChannelConfig} {active : Conditions} {u : ChannelUnit}
    (hc : cc.used = false) : u.settled cc active ↔
      u.handed = some .off ∧ u.deferred = none ∧ u.state = .normal ∧ u.output = .off := by
  have hr : u.requested cc = .off := by simp [ChannelUnit.requested, hc]
  simp only [ChannelUnit.settled, hc, Bool.false_eq_true, if_false, hr, ChannelUnit.currentRequest]
  constructor
  · rintro ⟨h1, h2, h3, h4, h5⟩
    refine ⟨h1, ?_, h4, h5⟩
    cases hd : u.deferred with
    | none => rfl
    | some l => rw [hd, h5] at h3; rw [hd] at h2; exact absurd (congrArg some h2) h3
  · rintro ⟨h1, h2, h3, h4⟩
    exact ⟨h1, by simp [h2, h4], by simp [h2], h3, h4⟩

/-! ## The Output Stage -/

/-- After a request it is the current request (R173). -/
theorem Work.request_current (cc : ChannelConfig) (l : Level) (w : Work) :
    (w.request cc l).unit.currentRequest = l ∧
      (w.request cc l).unit.deferred ≠ some (w.request cc l).unit.output := by
  unfold Work.request
  split_ifs with h1 h2
  · simp [ChannelUnit.currentRequest, h1]
  · simp [ChannelUnit.currentRequest, Work.drive]
  · simp [ChannelUnit.currentRequest, h1]

/-- After an entry into FALLBACK_HOLD the safe level is the current request (R174). -/
theorem Work.fallbackEntry_current (cc : ChannelConfig) (w : Work) :
    (w.fallbackEntry cc).unit.currentRequest = cc.safe ∧
      (w.fallbackEntry cc).unit.deferred ≠ some (w.fallbackEntry cc).unit.output := by
  unfold Work.fallbackEntry
  split_ifs with h1 h2
  · exact Work.request_current cc cc.safe w
  · simp [ChannelUnit.currentRequest, h2]
  · simp [ChannelUnit.currentRequest, Work.drive]

theorem Work.takeDeferred_tracks (cc : ChannelConfig) {w : Work} (h : w.unit.tracks) :
    (w.takeDeferred cc).unit.tracks := by
  unfold Work.takeDeferred
  split
  · rename_i l hl
    split_ifs
    · exact h
    · obtain ⟨h1, h2⟩ := h
      simp only [ChannelUnit.currentRequest, hl, Option.getD_some] at h1
      exact ⟨by simpa [Work.drive, ChannelUnit.currentRequest] using h1, by simp [Work.drive]⟩
  · exact h

theorem Work.takeDeferred_none (cc : ChannelConfig) {w : Work} (h : w.unit.deferred = none) :
    w.takeDeferred cc = w := by
  unfold Work.takeDeferred; simp [h]

theorem Work.rework_tracks (cc : ChannelConfig) {w : Work} (h : w.unit.tracks) :
    (w.rework cc).unit.handed = some ((w.rework cc).unit.requested cc) ∧ (w.rework cc).unit.tracks := by
  have hr : (w.rework cc).unit.requested cc = w.unit.requested cc :=
    ChannelUnit.requested_congr cc (by simp) (by simp) (by simp)
  rw [hr]
  unfold Work.rework
  rw [h.1]
  dsimp only
  split_ifs with h1
  · exact ⟨by rw [h.1, h1], h⟩
  · have hc := Work.request_current cc (w.unit.requested cc)
      (w.put { w.unit with handed := some (w.unit.requested cc) })
    exact ⟨by simp, by simp [ChannelUnit.tracks, hc.1, hc.2]⟩

theorem Work.rework_unused (cc : ChannelConfig) {w : Work} (hc : cc.used = false)
    (h : w.unit.handed = some .off) : w.rework cc = w := by
  unfold Work.rework
  simp [h, ChannelUnit.requested, hc]

/-- A channel reworked is settled when its request was tracked and its state agrees with its conditions. -/
theorem Work.rework_settled {cc : ChannelConfig} {active : Conditions} {w : Work} (hc : cc.used = true)
    (ht : w.unit.tracks) (hs : w.unit.state = .fallbackHold ↔ w.unit.effective cc active = true) :
    (w.rework cc).unit.settled cc active := by
  rw [ChannelUnit.settled_used hc]
  obtain ⟨h1, h2⟩ := Work.rework_tracks cc ht
  refine ⟨h1, h2, ?_⟩
  rw [Work.rework_state, ChannelUnit.effective_congr cc active (Work.rework_forced cc w)]
  exact hs

theorem Work.dwellTick_settled {cc : ChannelConfig} {active : Conditions} {u : ChannelUnit}
    (h : u.settled cc active) : ((Work.idle u).dwellTick cc).unit.settled cc active := by
  unfold Work.dwellTick
  split_ifs with h1 h2
  · exact h
  · cases hc : cc.used
    · rw [ChannelUnit.settled_unused hc] at h ⊢
      rw [Work.takeDeferred_none cc (by simpa using h.2.1)]
      exact h
    · rw [ChannelUnit.settled_used hc] at h ⊢
      obtain ⟨a, b, c⟩ := h
      refine ⟨?_, Work.takeDeferred_tracks cc (by exact b), ?_⟩
      · rw [Work.takeDeferred_handed, ChannelUnit.requested_congr cc (u := u) (by simp) (by simp) (by simp)]
        exact a
      · rw [Work.takeDeferred_state, ChannelUnit.effective_congr cc active (u := u) (by simp)]
        exact c
  · exact h

/-! ## The override record -/

/-- An override and its source written, and the level worked out afresh. -/
theorem Work.rework_keeps_settled {cc : ChannelConfig} {active : Conditions} {u : ChannelUnit} {w : Work}
    (h : u.settled cc active) (h1 : w.unit.handed = u.handed) (h2 : w.unit.output = u.output)
    (h3 : w.unit.deferred = u.deferred) (h4 : w.unit.state = u.state) (h5 : w.unit.forced = u.forced) :
    (w.rework cc).unit.settled cc active := by
  cases hc : cc.used
  · rw [ChannelUnit.settled_unused hc] at h
    rw [Work.rework_unused cc hc (by rw [h1]; exact h.1), ChannelUnit.settled_unused hc, h1, h2, h3, h4]
    exact h
  · rw [ChannelUnit.settled_used hc] at h
    refine Work.rework_settled hc ?_ ?_
    · simp only [ChannelUnit.tracks, ChannelUnit.currentRequest, h1, h2, h3]
      exact h.2.1
    · rw [h4, ChannelUnit.effective_congr cc active h5]
      exact h.2.2

/-- What leaves the requested level and the output's side alone keeps a channel settled. -/
theorem ChannelUnit.settled_of_same {cc : ChannelConfig} {active : Conditions} {u v : ChannelUnit}
    (h : u.settled cc active) (h1 : v.handed = u.handed) (h2 : v.output = u.output)
    (h3 : v.deferred = u.deferred) (h4 : v.state = u.state) (h5 : v.forced = u.forced)
    (h6 : v.requested cc = u.requested cc) : v.settled cc active := by
  obtain ⟨a, b, c, d⟩ := h
  have hd : v.currentRequest = u.currentRequest := by simp only [ChannelUnit.currentRequest, h2, h3]
  refine ⟨by rw [h1, h6, a], by rw [hd, h6, b], by rw [h3, h2]; exact c, ?_⟩
  rw [h4, h2, ChannelUnit.effective_congr cc active h5]
  exact d

/-- A step of a record that ends no countdown does not change the level it imposes. -/
theorem Imposed.tick_combine (i : Imposed) (h : i.tick.2 = false) (action : Level) (critical : Bool) :
    combine i.tick.1 action critical = combine i action critical := by
  cases i with
  | none => rfl
  | force l phase =>
    cases phase with
    | delay n r => simp only [Imposed.tick] at h ⊢; split_ifs at h ⊢; rfl
    | run r => simp only [Imposed.tick] at h ⊢; split_ifs at h ⊢; cases l <;> rfl
  | cycle c => simp only [Imposed.tick] at h ⊢; split_ifs at h ⊢; rfl

theorem Work.recordTick_settled {cc : ChannelConfig} {active : Conditions} {u : ChannelUnit}
    (h : u.settled cc active) : ((Work.idle u).recordTick cc).unit.settled cc active := by
  unfold Work.recordTick
  dsimp only
  split_ifs with h1
  · exact Work.rework_keeps_settled h (by simp) (by simp) (by simp) (by simp) (by simp)
  · refine ChannelUnit.settled_of_same h (by simp) (by simp) (by simp) (by simp) (by simp) ?_
    simp only [ChannelUnit.requested, Work.impose_state, Work.impose_imposed, Work.idle_unit,
      ChannelUnit.bandAction, ChannelUnit.bandCritical, Work.impose_band]
    rw [Imposed.tick_combine _ (by simpa using h1)]

theorem Work.order_settled {cc : ChannelConfig} {active : Conditions} {slot age : Nat} {origin : Byte}
    {serial : Word} {o : ChannelOrder} {u : ChannelUnit} (h : u.settled cc active) :
    ((Work.idle u).order cc slot origin serial age o).unit.settled cc active := by
  unfold Work.order
  split_ifs
  · exact h
  · split
    · exact h
    · exact Work.rework_keeps_settled h (by simp [Work.wroteBy]) (by simp [Work.wroteBy])
        (by simp [Work.wroteBy]) (by simp [Work.wroteBy]) (by simp [Work.wroteBy])
  · exact h

theorem Work.press_settled {cc : ChannelConfig} {active : Conditions} {minutes : Nat} {w : Work}
    (h : w.unit.settled cc active) : (w.press cc minutes).unit.settled cc active := by
  unfold Work.press
  split
  · exact Work.rework_keeps_settled h (by simp) (by simp) (by simp) (by simp) (by simp)
  · split_ifs
    · exact Work.rework_keeps_settled h (by simp [Work.wroteBy]) (by simp [Work.wroteBy])
        (by simp [Work.wroteBy]) (by simp [Work.wroteBy]) (by simp [Work.wroteBy])
    · exact h
  · exact h

theorem Work.takeBand_settled {cc : ChannelConfig} {active : Conditions} {b : Option HandedBand}
    {u : ChannelUnit} (h : u.settled cc active) :
    ((Work.idle u).takeBand cc b).unit.settled cc active :=
  Work.rework_keeps_settled h rfl rfl rfl rfl rfl

/-! ## The channel state -/

theorem Work.enterHold_settled {cc : ChannelConfig} {active : Conditions} {w : Work} (hc : cc.used = true)
    (he : w.unit.effective cc active = true) : (w.enterHold cc).unit.settled cc active := by
  obtain ⟨h1, h2⟩ := Work.fallbackEntry_current cc
    (w.report { w.unit with state := .fallbackHold, handed := some cc.safe })
  rw [ChannelUnit.settled_used hc]
  have hr : (w.enterHold cc).unit.requested cc = cc.safe := by simp [ChannelUnit.requested, hc]
  refine ⟨by rw [hr]; simp, ⟨?_, h2⟩, ?_⟩
  · have : (w.enterHold cc).unit.currentRequest = cc.safe := h1
    rw [this]; simp
  · rw [Work.enterHold_state, ChannelUnit.effective_congr cc active (Work.enterHold_forced cc w)]
    simp [he]

theorem Work.enterNormal_settled {cc : ChannelConfig} {active : Conditions} {w : Work} (hc : cc.used = true)
    (ht : w.unit.tracks) (he : w.unit.effective cc active = false) :
    (w.enterNormal cc).unit.settled cc active := by
  refine Work.rework_settled hc ht ?_
  have : ({ w.unit with state := .normal } : ChannelUnit).effective cc active = false := he
  simp [this]

/-- A channel let go whose safe level was handed is settled once no effective condition is active. -/
theorem Work.leaveHold_settled {cc : ChannelConfig} {active : Conditions} {slot : Nat} {w : Work}
    (hc : cc.used = true) (ht : w.unit.tracks) (hh : w.unit.handed = some cc.safe)
    (he : w.unit.effective cc active = false) : (w.leaveHold cc slot).unit.settled cc active := by
  have waits : ∀ (st : ChannelState) (x : Bool), st ≠ .normal → st ≠ .fallbackHold →
      ({ w.unit with state := st, returnSet := x } : ChannelUnit).settled cc active := by
    intro st x h1 h2
    rw [ChannelUnit.settled_used hc]
    refine ⟨?_, ht, ?_⟩
    · simp only [ChannelUnit.requested, hc, if_true, hh]
      cases st <;> simp_all
    · have : ({ w.unit with state := st, returnSet := x } : ChannelUnit).effective cc active = false := he
      simp [this, h2]
  unfold Work.leaveHold
  split_ifs
  · exact waits _ _ (by simp) (by simp)
  · unfold Work.beginReturn
    split_ifs
    · exact Work.enterNormal_settled hc ht he
    · exact waits _ _ (by simp) (by simp)

theorem Work.conditionRaised_settled {cc : ChannelConfig} {active : Conditions} {w : Work}
    (hc : cc.used = true) (h : w.unit.handed = some (w.unit.requested cc) ∧ w.unit.tracks)
    (he : w.unit.effective cc active = true) : (w.conditionRaised cc).unit.settled cc active := by
  unfold Work.conditionRaised
  split_ifs with h1
  · rw [ChannelUnit.settled_used hc]
    exact ⟨h.1, h.2, by simp [h1, he]⟩
  · exact Work.enterHold_settled hc he

theorem Work.conditionCleared_settled {cc : ChannelConfig} {active : Conditions} {slot : Nat} {w : Work}
    (hc : cc.used = true) (h : w.unit.handed = some (w.unit.requested cc) ∧ w.unit.tracks)
    (hs : w.unit.effective cc active = true → w.unit.state = .fallbackHold) :
    (w.conditionCleared cc slot active).unit.settled cc active := by
  unfold Work.conditionCleared
  split_ifs with h1
  · simp only [Bool.and_eq_true, decide_eq_true_eq, Bool.not_eq_true'] at h1
    refine Work.leaveHold_settled hc h.2 ?_ h1.2
    rw [h.1]; simp [ChannelUnit.requested, hc, h1.1]
  · rw [ChannelUnit.settled_used hc]
    refine ⟨h.1, h.2, fun h2 => ?_, hs⟩
    by_contra h3
    exact h1 (by simp [h2, h3])

/-- A change of a station condition keeps a channel settled. -/
theorem Work.stationCondition_settled {cc : ChannelConfig} {before : Conditions} {slot : Nat} {k : Condition}
    {x : Bool} {u : ChannelUnit} (h : u.settled cc before) (hx : before.get k ≠ x) :
    ((Work.idle u).stationCondition cc slot (before.set k x) k).unit.settled cc (before.set k x) := by
  have outside : cc.used = true → cc.mask.get k = false →
      u.effective cc (before.set k x) = u.effective cc before := by
    intro _ hm
    simp only [ChannelUnit.effective]
    congr 1
    rw [Bool.eq_iff_iff, Conditions.meets_iff, Conditions.meets_iff]
    constructor <;> rintro ⟨j, h1, h2⟩ <;> refine ⟨j, ?_, h2⟩ <;>
      (have hj : j ≠ k := fun hj => by rw [hj, hm] at h2; cases h2)
    · rwa [Conditions.get_set_of_ne _ _ hj] at h1
    · rwa [Conditions.get_set_of_ne _ _ hj]
  unfold Work.stationCondition
  cases hc : cc.used
  · simp only [Bool.false_and, Bool.false_eq_true, if_false]
    rw [ChannelUnit.settled_unused hc] at h ⊢
    exact h
  · rw [ChannelUnit.settled_used hc] at h
    cases hm : cc.mask.get k
    · simp only [Bool.and_false, Bool.false_eq_true, if_false]
      rw [ChannelUnit.settled_used hc]
      exact ⟨h.1, h.2.1, by rw [Work.idle_unit, outside hc hm]; exact h.2.2⟩
    · simp only [Bool.and_self, if_true, Conditions.get_set_self]
      cases x
      · simp only [Bool.false_eq_true, if_false]
        refine Work.conditionCleared_settled hc ⟨h.1, h.2.1⟩ fun he => h.2.2.2 ?_
        simp only [ChannelUnit.effective, Bool.or_eq_true, Conditions.meets_iff, Work.idle_unit] at he ⊢
        refine he.imp_right fun ⟨j, h1, h2⟩ => ⟨j, ?_, h2⟩
        by_cases hj : j = k
        · rw [hj, Conditions.get_set_self] at h1; cases h1
        · rwa [Conditions.get_set_of_ne _ _ hj] at h1
      · simp only [if_true]
        refine Work.conditionRaised_settled hc ⟨h.1, h.2.1⟩ ?_
        simp only [ChannelUnit.effective, Bool.or_eq_true, Conditions.meets_iff, Work.idle_unit]
        exact .inr ⟨k, by simp, hm⟩

theorem Work.forceSafe_settled {cc : ChannelConfig} {active : Conditions} {slot : Nat} {origin : Byte}
    {serial : Word} {on : Bool} {u : ChannelUnit} (h : u.settled cc active) :
    ((Work.idle u).forceSafe cc slot active origin serial on).unit.settled cc active := by
  unfold Work.forceSafe
  split_ifs with hc h1 h2 h3
  · exact h
  · refine ChannelUnit.settled_of_same h rfl rfl rfl rfl ?_ rfl
    exact h2.symm
  · rw [ChannelUnit.settled_used hc] at h
    refine Work.conditionRaised_settled hc ⟨h.1, h.2.1⟩ ?_
    simp [ChannelUnit.effective, h3]
  · rw [ChannelUnit.settled_used hc] at h
    refine Work.conditionCleared_settled hc ⟨h.1, h.2.1⟩ fun he => h.2.2.2 ?_
    simp only [ChannelUnit.effective, Work.report_unit, Bool.not_eq_true] at he h3 ⊢
    simp [h3] at he
    simp [he]
  · exact h

theorem Work.release_settled {cc : ChannelConfig} {active : Conditions} {u : ChannelUnit}
    (h : u.settled cc active) : ((Work.idle u).release cc).unit.settled cc active := by
  unfold Work.release
  split_ifs with hc
  · rw [ChannelUnit.settled_used hc] at h
    have key : u.state ≠ .fallbackHold → (((Work.idle u).enterNormal cc).countApplied).unit.settled cc active := by
      intro hs
      refine Work.enterNormal_settled hc h.2.1 ?_
      have := mt h.2.2.2 hs
      simpa using this
    split
    · rename_i heq; exact key (by simp only [Work.idle_unit] at heq; rw [heq]; simp)
    · rename_i heq; exact key (by simp only [Work.idle_unit] at heq; rw [heq]; simp)
    · rw [ChannelUnit.settled_used hc]; exact h
    · rw [ChannelUnit.settled_used hc]; exact h
  · exact h

theorem Work.returnTick_settled {cc : ChannelConfig} {active : Conditions} {u : ChannelUnit}
    (h : u.settled cc active) : ((Work.idle u).returnTick cc).unit.settled cc active := by
  unfold Work.returnTick
  split
  · rename_i n hn
    simp only [Work.idle_unit] at hn
    cases hc : cc.used
    · rw [ChannelUnit.settled_unused hc] at h
      rw [hn] at h
      cases h.2.2.1
    · rw [ChannelUnit.settled_used hc] at h
      have he : u.effective cc active = false := by
        have := mt h.2.2.2 (by rw [hn]; simp); simpa using this
      split_ifs
      · rw [ChannelUnit.settled_used hc]; exact h
      · exact Work.enterNormal_settled hc h.2.1 he
      · rw [ChannelUnit.settled_used hc]
        refine ⟨?_, h.2.1, ?_⟩
        · have : ({ u with state := .returnWait (n - 1) } : ChannelUnit).requested cc = u.requested cc := by
            simp [ChannelUnit.requested, hn]
          exact h.1.trans (congrArg some this.symm)
        · have : ({ u with state := .returnWait (n - 1) } : ChannelUnit).effective cc active = false := he
          simp [this]
  · exact h

/-- The output set straight is at the level handed, with nothing deferred (R171). -/
theorem Work.straight_level (cc : ChannelConfig) (l : Level) (w : Work) :
    (w.straight cc l).unit.handed = some l ∧ (w.straight cc l).unit.output = l ∧
      (w.straight cc l).unit.deferred = none := by
  unfold Work.straight
  split_ifs with h
  · exact ⟨rfl, h.symm, rfl⟩
  · exact ⟨rfl, rfl, rfl⟩

theorem Work.straight_tracks (cc : ChannelConfig) (l : Level) (w : Work) :
    (w.straight cc l).unit.tracks := by
  obtain ⟨h1, h2, h3⟩ := Work.straight_level cc l w
  simp only [ChannelUnit.tracks, ChannelUnit.currentRequest, h1, h2, h3]
  exact ⟨rfl, by simp⟩

/-- A channel placed is settled, whatever it was before (R163). -/
theorem Work.place_settled {cc : ChannelConfig} {active : Conditions} {slot : Nat} {u : ChannelUnit} :
    ((Work.idle u).place cc slot active).unit.settled cc active := by
  unfold Work.place
  dsimp only
  generalize hw : (Work.idle u).report { (Work.idle u).unit with state := .fallbackHold } = w
  have hs : w.unit.state = .fallbackHold := by rw [← hw]; rfl
  have hf : w.unit.forced = u.forced := by rw [← hw]; rfl
  split_ifs with hc he
  · rw [ChannelUnit.settled_used hc]
    refine ⟨?_, Work.straight_tracks cc cc.safe w, ?_⟩
    · rw [(Work.straight_level cc cc.safe w).1]; simp [ChannelUnit.requested, hc, hs]
    · rw [ChannelUnit.effective_congr cc active (u := u) (by simp [hf])]
      simp only [Work.straight_state, hs, true_iff]
      exact he
  · have hn : (w.straight cc cc.safe).unit.effective cc active = false := by
      rw [ChannelUnit.effective_congr cc active (u := u) (by simp [hf])]
      simpa using he
    have := Work.leaveHold_settled (slot := slot) (cc := { cc with noAutoReturn := false })
      (active := active) hc (Work.straight_tracks cc cc.safe w) (Work.straight_level cc cc.safe w).1 hn
    exact this
  · obtain ⟨h1, h2, h3⟩ := Work.straight_level cc .off
      ((Work.idle u).report { (Work.idle u).unit with state := .normal })
    rw [ChannelUnit.settled_unused (by simpa using hc)]
    exact ⟨h1, h3, by simp, h2⟩

end Sys2Proof.Machine
end

