-- ==== Sys2Proof/Laws/SettledState.lean ====
section
/-! SUPPORT. What each operation of the part keeps of its settled channels: every operation that changes a station
condition, a band, an override or a channel state leaves every channel settled. -/

namespace Sys2Proof.Machine

/-- Every channel is settled under these configuration values. -/
def State.settledWith (cfg : Configuration) (s : State) : Prop :=
  ∀ c, (s.channels.get c).settled (cfg.channel c) s.monitor.conditions

theorem State.settledWith_of_frame {cfg : Configuration} {ps : List Part} {s t : State}
    (h : s.keepsAllBut ps t) (h1 : Part.channels ∉ ps) (h2 : Part.monitor ∉ ps) (hs : s.settledWith cfg) :
    t.settledWith cfg := by
  intro c
  have a : t.channels = s.channels := h .channels h1
  have b : t.monitor = s.monitor := h .monitor h2
  rw [a, b]; exact hs c

theorem State.onEachChannel_settled {cfg : Configuration} {f : Channel → ChannelUnit → Work} {s : State}
    (hf : ∀ c u, u.settled (cfg.channel c) s.monitor.conditions →
      (f c u).unit.settled (cfg.channel c) s.monitor.conditions) (hs : s.settledWith cfg) :
    (s.onEachChannel f).settledWith cfg := by
  intro c
  rw [State.onEachChannel_get, State.onEachChannel_monitor]
  exact hf c _ (hs c)

theorem State.onChannel_settled {cfg : Configuration} {c : Channel} {f : ChannelUnit → Work} {s : State}
    (hf : ∀ u, u.settled (cfg.channel c) s.monitor.conditions →
      (f u).unit.settled (cfg.channel c) s.monitor.conditions) (hs : s.settledWith cfg) :
    (s.onChannel c f).settledWith cfg := by
  intro d
  have hm : (s.onChannel c f).monitor = s.monitor := rfl
  rw [hm]
  by_cases h : d = c
  · subst h; rw [State.onChannel_get_self]; exact hf _ (hs d)
  · rw [State.onChannel_get_of_ne s f h]; exact hs d

theorem State.setCondition_settled {cfg : Configuration} {k : Condition} {x : Bool} {s : State}
    (hs : s.settledWith cfg) : (s.setCondition cfg k x).settledWith cfg := by
  unfold State.setCondition
  split_ifs with h
  · exact hs
  · intro c
    rw [State.onEachChannel_get, State.onEachChannel_monitor]
    exact Work.stationCondition_settled (hs c) h

/-- The monitor's countdowns and its measurement are no part of what a channel settles on. -/
theorem State.setMonitor_settled {cfg : Configuration} {m : Monitor} {s : State}
    (h : m.conditions = s.monitor.conditions) (hs : s.settledWith cfg) : (s.setMonitor m).settledWith cfg := by
  intro c
  rw [State.setMonitor_monitor, h, State.setMonitor_channels]
  exact hs c

theorem State.reportTimeInvalid_settled {cfg : Configuration} {s : State} (hs : s.settledWith cfg) :
    (s.reportTimeInvalid cfg).settledWith cfg := State.setCondition_settled hs

theorem State.reportProgram_settled {cfg : Configuration} {s : State} (hs : s.settledWith cfg) :
    (s.reportProgram cfg).settledWith cfg := State.setCondition_settled hs

theorem State.reportStep_settled {cfg : Configuration} {s : State} (hs : s.settledWith cfg) :
    (s.reportStep cfg).settledWith cfg := State.setCondition_settled (State.setMonitor_settled rfl hs)

theorem State.restartSilence_settled {cfg : Configuration} {s : State} (hs : s.settledWith cfg) :
    (s.restartSilence cfg).settledWith cfg := State.setCondition_settled (State.setMonitor_settled rfl hs)

theorem State.silenceTick_settled {cfg : Configuration} {s : State} (hs : s.settledWith cfg) :
    (s.silenceTick cfg).settledWith cfg := by
  unfold State.silenceTick
  split
  · exact hs
  · split_ifs
    · exact hs
    · exact State.setCondition_settled (State.setMonitor_settled rfl hs)
    · exact State.setMonitor_settled rfl hs

theorem State.stepHoldTick_settled {cfg : Configuration} {s : State} (hs : s.settledWith cfg) :
    (s.stepHoldTick cfg).settledWith cfg := by
  unfold State.stepHoldTick
  split_ifs
  · exact hs
  · exact State.setCondition_settled (State.setMonitor_settled rfl hs)
  · exact State.setMonitor_settled rfl hs

theorem State.resolveOver_settled {cfg : Configuration} {windows : List (Option Window)} {s : State}
    (hs : s.settledWith cfg) : (s.resolveOver cfg windows).settledWith cfg := by
  have h1 : ∀ b, (s.handBand cfg b).settledWith cfg := by
    intro b
    unfold State.handBand
    split_ifs
    · exact hs
    · exact State.onEachChannel_settled (fun c u hu => Work.takeBand_settled hu) hs
  unfold State.resolveOver
  exact State.settledWith_of_frame (State.handIndex_frame _ _) (by decide) (by decide) (h1 _)

theorem State.resolve_settled {cfg : Configuration} {s : State} (hs : s.settledWith cfg) :
    (s.resolve cfg).settledWith cfg := State.resolveOver_settled hs

theorem State.resolveAwaiting_settled {cfg : Configuration} {awaited : List Moment} {s : State}
    (hs : s.settledWith cfg) : (s.resolveAwaiting cfg awaited).settledWith cfg := State.resolveOver_settled hs

theorem State.expireWindows_settled {cfg : Configuration} {s : State} (hs : s.settledWith cfg) :
    s.expireWindows.settledWith cfg :=
  State.settledWith_of_frame (State.expireWindows_frame s) (by decide) (by decide) hs

theorem State.expireAndResolve_settled {cfg : Configuration} {s : State} (hs : s.settledWith cfg) :
    (s.expireAndResolve cfg).settledWith cfg := State.resolve_settled (State.expireWindows_settled hs)

theorem State.count_settled {cfg : Configuration} {k : Counter} {s : State} (hs : s.settledWith cfg) :
    (s.count k).settledWith cfg := hs

/-- A meeting of events that each leave the channels settled leaves them settled. -/
theorem State.inSomeOrder_settled {cfg : Configuration} {acts : List (State → State)} {s : State}
    (h : ∀ a ∈ acts, ∀ t, t.settledWith cfg → (a t).settledWith cfg) (hs : s.settledWith cfg) :
    (s.inSomeOrder acts).settledWith cfg :=
  State.inSomeOrder_keeps (P := fun t => t.settledWith cfg) h hs

theorem State.activate_settled {cfg : Configuration} {awaited : List Moment} {p : Program} {s : State}
    (hs : s.settledWith cfg) : (s.activate cfg awaited p).settledWith cfg := by
  refine State.inSomeOrder_settled ?_ hs
  simp only [List.forall_mem_cons, List.not_mem_nil, false_implies, implies_true, and_true]
  exact ⟨fun t => State.resolveAwaiting_settled, fun t => State.reportProgram_settled⟩

theorem State.examineAwaiting_settled {cfg : Configuration} {awaited : List Moment} {s : State}
    (hs : s.settledWith cfg) : (s.examineAwaiting cfg awaited).settledWith cfg := by
  unfold State.examineAwaiting
  split
  · split_ifs
    · exact State.activate_settled hs
    · exact hs
  · exact hs

theorem State.examineProgram_settled {cfg : Configuration} {s : State} (hs : s.settledWith cfg) :
    (s.examineProgram cfg).settledWith cfg := State.examineAwaiting_settled hs

theorem State.clockEvent_settled {cfg : Configuration} {awaited : List Moment} {e : ClockEvent} {s : State}
    (hs : s.settledWith cfg) : (s.clockEvent cfg awaited e).settledWith cfg := by
  cases e
  · exact State.resolveAwaiting_settled hs
  · exact State.resolveAwaiting_settled hs
  · exact State.resolveAwaiting_settled (State.expireWindows_settled hs)
  · exact State.examineAwaiting_settled hs

theorem State.takeClockEvents_settled {cfg : Configuration} {crossed : List Moment} {es : List ClockEvent}
    {s : State} (hs : s.settledWith cfg) : (s.takeClockEvents cfg crossed es).settledWith cfg :=
  State.takeClockEvents_keeps (P := fun t => t.settledWith cfg) (fun _ _ _ => State.clockEvent_settled) es hs

theorem State.complete_settled {cfg : Configuration} {image : List Byte} {s : State} (hs : s.settledWith cfg) :
    (s.complete cfg image).settledWith cfg := by
  unfold State.complete
  dsimp only
  split_ifs
  · exact hs
  · exact hs
  · exact hs
  · exact State.examineProgram_settled hs

theorem State.collect_settled {cfg : Configuration} {origin : Byte} {payload : List Byte} {s : State}
    (hs : s.settledWith cfg) : (s.collect cfg origin payload).settledWith cfg := by
  unfold State.collect
  dsimp only
  split_ifs
  · exact State.complete_settled hs
  · exact hs
  · exact hs

theorem State.resolverTimeState_settled {cfg : Configuration} {before : TimeState} {s : State}
    (hs : s.settledWith cfg) : (s.resolverTimeState cfg before).settledWith cfg := by
  unfold State.resolverTimeState
  split_ifs
  · exact State.expireAndResolve_settled hs
  · exact State.resolve_settled hs

theorem State.reportTimeState_settled {cfg : Configuration} {before : TimeState} {s : State}
    (hs : s.settledWith cfg) : (s.reportTimeState cfg before).settledWith cfg := by
  unfold State.reportTimeState
  split_ifs
  · exact hs
  · refine State.inSomeOrder_settled ?_ hs
    simp only [List.forall_mem_cons, List.not_mem_nil, false_implies, implies_true, and_true]
    exact ⟨fun t => State.resolverTimeState_settled, fun t => State.examineProgram_settled,
      fun t => State.reportTimeInvalid_settled⟩

theorem State.takeClasses_settled {cfg : Configuration} {b : Beacon} {s : State} (hs : s.settledWith cfg) :
    (s.takeClasses cfg b).settledWith cfg := by
  unfold State.takeClasses
  dsimp only
  split_ifs
  · exact hs
  · exact State.resolve_settled hs

theorem State.beacon_settled {cfg : Configuration} {b : Beacon} {age : Nat} {s : State}
    (hs : s.settledWith cfg) : (s.beacon cfg b age).settledWith cfg := by
  have key : ∀ (x : Timekeeper) (d : Decision), (State.countDecision d (s.setTime x)).settledWith cfg :=
    fun x d => State.settledWith_of_frame (State.countDecision_frame d _) (by decide) (by decide) hs
  unfold State.beacon
  dsimp only
  split
  · refine State.inSomeOrder_settled ?_ (by split_ifs <;> exact key _ _)
    intro a ha t ht
    simp only [beaconReports, List.mem_append, List.mem_singleton] at ha
    obtain ((ha | ha) | ha) | rfl := ha
    · split_ifs at ha
      · simp only [List.mem_cons, List.not_mem_nil, or_false] at ha
        rcases ha with rfl | rfl
        · exact State.expireAndResolve_settled ht
        · exact State.examineProgram_settled ht
      · cases ha
    · split_ifs at ha
      · simp only [List.mem_cons, List.not_mem_nil, or_false] at ha
        subst ha; exact State.reportStep_settled ht
      · cases ha
    · split_ifs at ha
      · cases ha
      · simp only [List.mem_cons, List.not_mem_nil, or_false] at ha
        rcases ha with rfl | rfl | rfl
        · exact State.resolverTimeState_settled ht
        · exact State.examineProgram_settled ht
        · exact State.reportTimeInvalid_settled ht
    · exact State.takeClasses_settled ht
  · exact hs

theorem State.setWindow_settled {cfg : Configuration} {origin : Byte} {serial : Word} {slot : Nat}
    {start stop : Minute} {band : Nat} {mode : WindowMode} {s : State} (hs : s.settledWith cfg) :
    (s.setWindow cfg origin serial slot start stop band mode).settledWith cfg := by
  unfold State.setWindow
  split_ifs
  · exact hs
  · exact hs
  · exact hs
  · exact State.expireAndResolve_settled hs

theorem State.clearWindow_settled {cfg : Configuration} {origin : Byte} {serial : Word} {slot : Nat}
    {s : State} (hs : s.settledWith cfg) : (s.clearWindow cfg origin serial slot).settledWith cfg := by
  unfold State.clearWindow
  dsimp only
  split_ifs
  · exact hs
  · exact hs
  · exact State.resolve_settled hs
  · exact hs
  · exact State.resolve_settled hs
  · exact hs

theorem State.atNamedChannels_settled {cfg : Configuration} {payload : List Byte}
    {f : ChannelConfig → Work → Work} {s : State}
    (hf : ∀ c u, u.settled (cfg.channel c) s.monitor.conditions →
      (f (cfg.channel c) (Work.idle u)).unit.settled (cfg.channel c) s.monitor.conditions)
    (hs : s.settledWith cfg) : (s.atNamedChannels cfg payload f).settledWith cfg := by
  refine State.onEachChannel_settled (fun c u hu => ?_) hs
  split_ifs
  · exact hf c u hu
  · exact hu

theorem State.route_settled {cfg : Configuration} {copy : List Byte} {s : State} (hs : s.settledWith cfg) :
    (s.route cfg copy).settledWith cfg := by
  unfold State.route
  split_ifs
  · exact State.beacon_settled hs
  · unfold State.routeOrder
    split
    · exact State.atNamedChannels_settled (fun c u hu => Work.order_settled hu) hs
    · exact State.setWindow_settled hs
    · exact State.clearWindow_settled hs
    · exact State.atNamedChannels_settled (fun c u hu => Work.forceSafe_settled hu) hs
    · exact State.atNamedChannels_settled (fun c u hu => Work.release_settled hu) hs
    · exact hs
  · exact hs
  · exact State.collect_settled hs
  · exact hs
  · exact hs

theorem State.accept_settled {cfg : Configuration} {copy : List Byte} {margin : Nat} {s : State}
    (hs : s.settledWith cfg) : (s.accept cfg copy margin).settledWith cfg := by
  refine State.inSomeOrder_settled ?_ hs
  simp only [List.forall_mem_cons, List.not_mem_nil, false_implies, implies_true, and_true]
  exact ⟨fun t ht => State.settledWith_of_frame (State.recordAcceptance_frame copy t) (by decide) (by decide) ht,
    fun t ht => State.settledWith_of_frame (State.openEntry_frame cfg copy margin _ t) (by decide) (by decide) ht,
    fun t => State.restartSilence_settled, fun t => State.route_settled⟩

theorem State.filter_settled {cfg : Configuration} {copy : List Byte} {margin : Nat} {s : State}
    (hs : s.settledWith cfg) : (s.filter cfg copy margin).settledWith cfg := by
  unfold State.filter
  split
  · unfold State.filterSound
    split
    · exact hs
    · split
      · exact State.settledWith_of_frame (State.echo_frame cfg _ copy _ s) (by decide) (by decide) hs
      · split
        · exact hs
        · split
          · exact State.accept_settled hs
          · exact hs
          · exact hs
  · exact hs

/-- A placement settles every channel, whatever came before it (R163). -/
theorem State.placeChannels_settled (cfg : Configuration) (s : State) :
    (s.placeChannels cfg).settledWith cfg := by
  intro c
  unfold State.placeChannels
  dsimp only
  rw [State.onEachChannel_get, State.onEachChannel_monitor]
  exact Work.place_settled

end Sys2Proof.Machine
end

