-- ==== Sys2Proof/Tests/Slice0.lean ====
section
/-! SUPPORT. The model's own tests: the checks of WellFormed refuse an ill-formed command each, the manual's worked
examples come out as it gives them, and for every statement with hypotheses a concrete state meets them. -/

namespace Sys2Proof.Machine.Test

-- One theorem at a time: a thread for each kernel evaluation would need more memory than the checks allow.
set_option Elab.async false

/-! ## A part to test -/

/-- A used channel with safe level OFF, masked on TIME_INVALID and NO_PROGRAM, as channel 1 of section 8.11. -/
def plain : ChannelConfig := ⟨true, .off, false, .none, ⟨true, true, true, false, false⟩, 5, 20, 10⟩

/-- Channels 1 and 5 plain, 2 with a HOLD input, 3 with a BOOST button, 4 with no automatic return, 6 unused. -/
def channelConfigs : Six ChannelConfig :=
  ⟨plain, { plain with input := .hold }, { plain with input := .boost },
   { plain with noAutoReturn := true }, { plain with returnBase := 0, returnSpread := 0 },
   { plain with used := false }⟩

/-- Station M of section 7.11 has stagger slot 128; the limits are the defaults of section 12.6. -/
def cfg : Configuration :=
  { relayEnable := true, relaySpread := 24, suppression := 2, heardMemory := 600, ageLimit := 60000,
    beaconMaxAge := 3000, stepThreshold := 200, holdLimit := 120, lostLimit := 36, silenceLimit := 180,
    stagger := 128, fallbackRegister := 1, boostLength := 60, origins := [12, 40], groups := [3],
    channels := channelConfigs }

/-- A program of one band, class SHOULDER with register 2 and every channel ON. -/
def program : Program :=
  { id := 305, activation := ⟨9000, 0⟩, defaultBand := 1, gridEnable := false,
    bands := List.replicate 16 ⟨.shoulder, 2, .all .on⟩, grid := List.replicate 192 1 }

/-- A channel in NORMAL whose band is ON, as it stands when settled. -/
def normalUnit : ChannelUnit :=
  { ChannelUnit.restart with state := .normal, band := some ⟨1, .shoulder, .on⟩, handed := some .on,
                             output := .on, input := ⟨.released, .released, 5⟩ }

/-- The unused channel 6. -/
def unusedUnit : ChannelUnit :=
  { ChannelUnit.restart with state := .normal, handed := some .off, band := some ⟨1, .shoulder, .on⟩ }

/-- A part that runs CONFIGURED at elapsed tick 5000, SYNCED at noon of day 9000, with its line QUIET. -/
def part : State :=
  { State.reset with
    elapsed := 5000
    line := ⟨.listening, .idle, .quiet, -20, 4000, none⟩
    origins := ⟨[⟨12, some ⟨1003, [2, 3]⟩⟩, ⟨40, none⟩], []⟩
    relay := ⟨List.replicate 64 none, .lineQuiet, ⟨128, -20, 0⟩, 0⟩
    time := { Timekeeper.cold with clock := ⟨9000, 4320000⟩, state := .synced, hold := 7200, lost := 129600 }
    programs := ⟨none, none, some program⟩
    resolver := ⟨List.replicate 24 none, some ⟨1, 305⟩, 2⟩
    channels := ⟨normalUnit, normalUnit, normalUnit, normalUnit, normalUnit, unusedUnit⟩
    register := 2
    monitor := ⟨.clear, some 10800, ⟨.inside, 0, 5000 * 81920 - 163840, 0⟩, 0, false⟩
    loader := { Loader.restart with load := .configured cfg } }

/-- What is seen of the state a command answers. -/
def seen {α : Type} (o : Host.Outcome State Fault Refusal) (f : State → α) : Option α :=
  match o with
  | .next s => some (f s)
  | _ => none

/-- A telegram of these fields with its check. -/
def telegram (kind origin : Byte) (serial : Word) (life : Byte) (age : Word) (target : Byte)
    (payload : List Byte) : List Byte :=
  let body := [kind, origin] ++ bytesOf serial ++ [life] ++ bytesOf age ++ [target] ++
    (payload ++ List.replicate (22 - payload.length) 0)
  body ++ bytesOf (crc16 body)

/-- The part with a reception of 32 bytes that ends now. -/
def receiving (s : State) : State :=
  s.setLine { s.line with receiver := .receiving [] 0 (s.elapsed - 20), indication := .busy }

/-- The command with which such a reception ends, at the level of the noise plus 6 dB. -/
def ends (bytes : List Byte) : Instr := .receptionEnd bytes (32 * -14)

/-- One channel's unit replaced. -/
def withUnit (c : Channel) (u : ChannelUnit) (s : State) : State := s.setChannels (s.channels.set c u)

/-- An override on a NORMAL channel. -/
def overridden (i : Imposed) : ChannelUnit := { normalUnit with override := ⟨i, some (.remote 12 3000)⟩ }

theorem test_part_is_sound : part.runsWith cfg ∧ part.clockSound ∧ part.windowsSound ∧ part.originsSound ∧
    part.monitor.countdownsShow := by decide

/-! ## WellFormed refuses -/

/-- An answer whose 66 bytes are all 0. -/
def answer (n pulses : Nat) (ack : Bool) : StoreAnswer := ⟨pulses, ack, ack, ack, ack, List.replicate n 0⟩

theorem test_wellFormed_refuses :
    (Instr.receptionEnd [] 0).wellFormed = false ∧
    (Instr.receptionEnd (List.replicate 33 0) 0).wellFormed = false ∧
    (Instr.entryFallsDue 64).wellFormed = false ∧ (Instr.entryExpiry 64).wellFormed = false ∧
    (Instr.mainsCrossing 81920).wellFormed = false ∧
    (Instr.readAttemptEnd (answer 65 0 true) 0 true).wellFormed = false ∧
    (Instr.readAttemptEnd (answer 66 10 true) 0 true).wellFormed = false ∧
    (Instr.readAttemptEnd (answer 66 0 false) 0 true).wellFormed = false := by decide

theorem test_wellFormed_allows :
    (Instr.receptionEnd (List.replicate 32 0) 0).wellFormed = true ∧ (Instr.entryExpiry 63).wellFormed = true ∧
    (Instr.mainsCrossing 81919).wellFormed = true ∧
    (Instr.readAttemptEnd (answer 66 9 true) 0 true).wellFormed = true ∧
    (Instr.readAttemptEnd (answer 0 10 true) 0 true).wellFormed = true := by decide

/-- No word spells a command (98_reader.md). -/
theorem test_no_word_is_a_command : decodeTableWord 16 0 = none ∧ (part.withFetchWord 16 0) = part := by
  exact ⟨rfl, rfl⟩

/-! ## The queue and the tick -/

theorem test_front_command_is_taken :
    seen (step { part with pending := [.startMark, .cleanTick 0] }) (·.line.receiver) =
      some (.receiving [] 0 5000) ∧
    seen (step { part with pending := [.startMark, .cleanTick 0] }) (·.pending) = some [.cleanTick 0] := by
  decide +kernel

theorem test_tick_of_a_running_part :
    let s := { part with elapsed := 5000 - 1 }
    (s.running = true ∧ s.pending = [] ∧ ¬ (s.loader.load = .loading ∧ s.loader.retryAt = none)) ∧
    seen (step s) (·.elapsed) = some 5000 ∧ seen (step part) (·.pending) = some [.clockAdvance] := by decide +kernel

/-- From reset with no store: the attempt ends in the tick in which it began, and VHOLD is as the meeting's
number says (R184, R185). -/
theorem test_no_store_answers :
    (State.reset.running = true ∧ State.reset.pending = [] ∧ State.reset.loader.load = .loading ∧
      State.reset.loader.retryAt = none) ∧
    seen (step State.reset) (fun t => (t.elapsed, t.pending)) =
      some (0, [.readAttemptEnd ⟨0, false, false, false, false, []⟩ 0 false]) ∧
    seen (step (State.reset.setMeetings [3, 8])) (fun t => (t.meetings, t.pending)) =
      some ([8], [.readAttemptEnd ⟨0, false, false, false, false, []⟩ 0 true]) ∧
    attemptEnd ⟨0, false, false, false, false, []⟩ = .noAnswer := by decide +kernel

/-- Loading as it goes on at ticks 0, 1 and 4: an attempt under way, a further one to come, the third. -/
theorem test_loading_is_sound :
    let waits := { State.reset with elapsed := 1, loader := { Loader.restart with retryAt := some 2 } }
    let third := { State.reset with elapsed := 4, loader := { Loader.restart with attempts := 3 } }
    State.reset.loadingSound ∧ waits.loadingSound ∧ third.loadingSound ∧
    (third.running = true ∧ third.loader.load = .loading) ∧
    seen (step waits) (fun t => (t.elapsed, t.pending.contains .readRetry)) = some (2, true) := by
  exact ⟨fun _ _ => ⟨by decide, by decide, (by decide : 0 ≤ 0)⟩,
    fun _ _ => ⟨by decide, by decide, (by decide : 1 ≤ 2), (by decide : 2 ≤ 2), .inl (by decide : 1 < 2)⟩,
    fun _ _ => ⟨by decide, by decide, (by decide : 4 ≤ 4)⟩, by decide, by decide +kernel⟩

/-- A tick forgets that a countdown was set at the tick before it. -/
theorem test_tick_lets_countdowns_run :
    let s := withUnit .ch1 { normalUnit with dwellSet := true, returnSet := true } part
    (part.running = true ∧ part.pending = []) ∧
    seen (step (s.setMonitor { s.monitor with stepHoldSet := true })) (fun t =>
      (t.channels.ch1, t.monitor.stepHoldSet)) = some (normalUnit, false) := by decide +kernel

theorem test_tick_of_a_stopped_part :
    let failed := { part with power := ⟨false, false, true, 0⟩ }
    let held := { part with power := ⟨true, true, false, 0⟩ }
    (failed.running = false ∧ failed.bridged = true ∧ held.running = false ∧ held.bridged = false) ∧
    seen (step failed) (·.pending) = some [.retainedClockTick] ∧ seen (step held) id = some held := by
  decide +kernel

/-- Tick 5000 ends an elapsed second of a part that runs CONFIGURED. -/
theorem test_second_end_queues_the_countdowns : part.runsWith cfg ∧
    [Instr.clockAdvance, .holdCountdownExpiry, .lostCountdownExpiry, .silenceExpiry, .statusSecondEnd].all
      (fun i => part.tickEvents.contains i) = true ∧
    part.tickEvents.contains .stepHoldExpiry = false := by decide +kernel

/-- Which of a channel's commands a tick queues, by its record; a record of kind NONE is not stepped. -/
theorem test_tick_events_of_a_channel :
    let due (i : Imposed) := channelEvents true { overridden i with dwell := 1, state := .returnWait 9 } .ch1
    due (.force .on (.delay 1 .indefinite)) = [.dwellEnd .ch1, .delayEnd .ch1, .returnCountdownExpiry .ch1] ∧
    due (.force .off (.run .indefinite)) = [.dwellEnd .ch1, .runEnd .ch1, .returnCountdownExpiry .ch1] ∧
    due (.cycle ⟨10, 10, .on, 1, .indefinite, none, true⟩) =
      [.dwellEnd .ch1, .portionEnd .ch1, .returnCountdownExpiry .ch1] ∧
    due .none = [.dwellEnd .ch1, .returnCountdownExpiry .ch1] := by decide +kernel

/-- The ticks of a part in LOADING, where a further attempt is due, and of one UNCONFIGURED, that sends. -/
theorem test_tick_events_before_configured :
    let waits := (part.setLoader { Loader.restart with retryAt := some 5000 })
    let sends := (part.setLoader { Loader.restart with load := .unconfigured }).setStatus ⟨some ⟨[], 4994⟩, false, 9⟩
    (waits.loader.load = .loading ∧ sends.loader.load = .unconfigured) ∧
    waits.tickEvents = [.clockAdvance, .holdCountdownExpiry, .lostCountdownExpiry, .readRetry] ∧
    sends.tickEvents = [.clockAdvance, .emissionEnd, .statusSecondEnd] := by decide +kernel

/-! ## Restarts and the supply -/

/-- NRESET is released after it was held low, or VDD rises with no retention mark; else none (R193). -/
theorem test_cold_restart :
    let held := { part with power := ⟨true, true, false, 0⟩ }
    let fresh := { part with power := ⟨false, false, false, 0⟩ }
    let bridged := { part with power := ⟨false, false, true, 300⟩ }
    (held.power.nresetLow = true ∧ fresh.power.vddUp = false ∧ fresh.power.mark = false ∧
      part.power.nresetLow = false ∧ part.power.vddUp = true ∧ bridged.power.mark = true) ∧
    seen (exec .coldRestart held) (fun t => (t.time, t.power)) = some (.cold, ⟨true, false, false, 0⟩) ∧
    seen (exec .coldRestart fresh) (·.elapsed) = some 0 ∧
    seen (exec .coldRestart part) (·.elapsed) = some 5000 ∧
    seen (exec .coldRestart bridged) (·.elapsed) = some 5000 := by decide +kernel

theorem test_warm_restart :
    let s := { part with power := ⟨false, false, true, 300⟩ }
    (s.power.vddUp = false ∧ s.power.mark = true ∧ s.power.nresetLow = false) ∧
    seen (exec .warmRestart s) (fun t => (t.time.state, t.time.clock)) = some (.holdover, ⟨9000, 4320000⟩) ∧
    seen (exec .warmRestart s) (fun t => (t.register, t.power)) = some (1, ⟨true, false, true, 0⟩) ∧
    (part.power.vddUp = true ∧ seen (exec .warmRestart part) (·.elapsed) = some 5000) := by decide +kernel

theorem test_supply_failure :
    (part.power.vddUp = true ∧ part.power.nresetLow = false) ∧
    seen (exec .supplyFailure part) (·.relaySinks .ch1) = some false ∧
    (let s := { part with power := ⟨true, true, false, 0⟩ }
     (s.power.vddUp = true ∧ s.power.nresetLow = true) ∧
     seen (exec .supplyFailure s) (·.power) = some ⟨false, true, false, 0⟩) := by decide +kernel

theorem test_vhold_loss :
    part.power.vddUp = true ∧ seen (exec .vholdLoss part) (·.time.state) = some .synced ∧
    (let s := { part with power := ⟨false, false, true, 7⟩ }
     s.power.vddUp = false ∧ seen (exec .vholdLoss s) (·.time.state) = some .unset) := by decide +kernel

/-- Midnight passes in a bridged interruption: tomorrow was absent, so today is WORKDAY (R64). -/
theorem test_retained_clock :
    let s := { part with power := ⟨false, false, true, 99⟩,
                         time := { part.time with clock := ⟨65535, 8639999⟩, today := .special, hold := 1 } }
    (s.bridged = true ∧ s.time.clock.tick < 8640000) ∧
    seen (exec .retainedClockTick s) (fun t => (t.time.clock, t.time.today, t.time.hold, t.time.state)) =
      some (⟨0, 0⟩, .workday, 0, .holdover) ∧
    (part.bridged = false ∧ seen (exec .retainedClockTick part) (·.time) = some part.time) := by
  decide +kernel

/-! ## Loading -/

/-- A part in its third read attempt. -/
def loading (attempts : Nat) : State := { State.reset with loader := { Loader.restart with attempts := attempts } }

theorem test_failed_attempts :
    ((loading 2).running = true ∧ (loading 2).loader.load = .loading ∧ (loading 2).loader.retryAt = none ∧
      attemptEnd (answer 0 0 false) = .noAnswer ∧ attemptEnd (answer 0 10 true) = .busFault) ∧
    seen (exec (.readAttemptEnd (answer 0 0 false) 0 true) (loading 2)) (·.loader.retryAt) = some (some 2) ∧
    seen (exec (.readAttemptEnd (answer 0 10 true) 0 true) (loading 3)) (·.loader.load) = some .unconfigured ∧
    (imagePasses (List.replicate 66 0) = false ∧
      seen (exec (.readAttemptEnd (answer 66 9 true) 0 true) (loading 3)) (·.loader.load) =
        some .unconfigured) := by decide +kernel

theorem test_read_retry :
    let s := { (loading 1) with elapsed := 5, loader := { Loader.restart with retryAt := some 5 } }
    seen (exec .readRetry s) (fun t => (t.loader.attempts, t.loader.retryAt)) = some (2, none) ∧
    seen (exec .readRetry { s with elapsed := 4 }) (·.loader.retryAt) = some (some 5) := by decide +kernel

/-- A configuration image of 64 bytes with its check; version 1, every default asked for, channels unused. -/
def image (version : Byte) : List Byte :=
  let body := version :: 1 :: List.replicate 15 255 ++ [0, 0, 0, 1, 12, 0, 0, 0, 1, 3] ++ List.replicate 37 0
  body ++ bytesOf (crc16 body)

theorem test_good_image_is_configured :
    let a : StoreAnswer := ⟨0, true, true, true, true, image 1⟩
    ((image 1).length = 66 ∧ imagePasses (image 1) = true ∧ versionOf (image 1) = 1 ∧
      (loading 1).resolver.index = (loading 1).register) ∧
    seen (exec (.readAttemptEnd a 0 true) (loading 1)) (fun t => t.power.mark && t.status.changePending) =
      some true ∧
    seen (exec (.readAttemptEnd a 0 true) (loading 1)) (·.monitor.silence) = some (some 10800) := by
  decide +kernel

/-- A good image with channels 4 and 5 of the part used, channel 4 with safe level ON and no automatic return. -/
def usedImage : List Byte :=
  let body := (image 1).take 49 ++ [0x07, 0x02, 5, 20, 10, 0x01, 0x00, 0, 0, 0] ++ List.replicate 5 0
  body ++ bytesOf (crc16 body)

/-- R163 to R165 and R171, with R164's two orders: a pending program is activated in the same instant, before
or after channel 4, masked on NO_PROGRAM, is placed. -/
theorem test_placement :
    let a : StoreAnswer := ⟨0, true, true, true, true, usedImage⟩
    let pending := (loading 1).setPrograms ⟨none, some { program with activation := ⟨0, 0⟩ }, none⟩
    let placed (meetings : List Nat) := seen (exec (.readAttemptEnd a 0 true) (pending.setMeetings meetings)) fun t =>
      ((t.channels.ch4.state, t.channels.ch4.output, t.channels.ch4.dwell), t.channels.ch5.state, t.channels.ch6.state)
    (usedImage.length = 66 ∧ imagePasses usedImage = true ∧ versionOf usedImage = 1 ∧
      attemptEnd a = .data usedImage ∧ pending.resolver.index = pending.register) ∧
    placed [0] = some ((.returnWait 300, .on, 1000), .normal, .normal) ∧
    placed [1] = some ((.releaseWait, .on, 1000), .normal, .normal) ∧
    seen (exec (.readAttemptEnd a 0 true) (loading 1)) (fun t => (t.channels.ch4.state, t.channels.ch4.dwellSet)) =
      some (.fallbackHold, true) := by decide +kernel

theorem test_other_version_is_unconfigured :
    let a : StoreAnswer := ⟨0, true, true, true, true, image 2⟩
    (imagePasses (image 2) = true ∧ versionOf (image 2) ≠ 1) ∧
    seen (exec (.readAttemptEnd a 0 true) (loading 1)) (·.loader.load) = some .unconfigured := by
  decide +kernel

theorem test_defaults : (configurationOf (image 1)).relaySpread = 24 ∧
    (configurationOf (image 1)).silenceLimit = 180 ∧ (configurationOf (image 1)).lostLimit = 36 ∧
    (configurationOf (image 1)).boostLength = 1 := by decide +kernel

/-- An image of values beyond both ends of their ranges (R187, R189, R190). -/
theorem test_clamps :
    let c := configurationOf ([1, 0xFE, 7, 9, 0, 59, 0xFE, 0, 0, 99, 0x20, 0, 0, 9, 200, 0x06, 0, 7, 0, 255, 9,
      1, 2, 1, 4, 0, 0, 5, 6, 7, 8, 9, 10, 11] ++ [0x3E, 0xE2, 255, 1, 61] ++ List.replicate 27 0)
    (c.relayEnable, c.relaySpread, c.suppression, c.heardMemory, c.ageLimit, c.beaconMaxAge) =
      (false, 8, 7, 60, 65000, 100) ∧
    (c.stepThreshold, c.holdLimit, c.lostLimit, c.silenceLimit, c.fallbackRegister, c.boostLength) =
      (6000, 10, 168, 1440, 1, 240) ∧
    (c.origins, c.groups) = ([1, 2, 1, 4], [1]) ∧
    c.channel .ch1 = ⟨false, .on, true, .none, ⟨false, true, false, false, false⟩, 255, 1, 60⟩ := by decide +kernel

/-! ## The line -/

theorem test_start_mark : part.runsWith cfg ∧ part.line.receiver = .listening ∧
    seen (exec .startMark part) (fun t => (t.line.indication, t.relay.access)) = some (.busy, .lineBusy) ∧
    seen (exec .startMark (receiving part)) (·.line.receiver) = some (.receiving [] 0 4980) ∧
    seen (exec .carrierAppears part) (fun t => (t.line.carrierAt, t.line.cleanFrom)) = some (some 5000, 4000) ∧
    seen (exec .carrierAppears (part.setLine { part.line with carrierAt := some 4800 }))
      (fun t => (t.line.carrierAt, t.line.cleanFrom)) = some (some 5000, 4801) := by decide +kernel

/-- The noise estimate moves an eighth of the way from -20 to -4 (R8). -/
theorem test_clean_tick :
    let s := part.setLine { part.line with indication := .busy }
    (s.line.cleanFrom < s.elapsed ∧ s.line.carrierAt = none ∧ s.line.receiver = .listening ∧
      s.line.slot = .idle ∧ (-4 : Rat) < 0) ∧
    seen (exec (.cleanTick (-4)) s) (fun t => (t.line.noise, t.line.indication)) = some (-18, .quiet) ∧
    seen (exec (.cleanTick 0) s) (·.line.indication) = some .busy := by decide +kernel

/-- What starts at the boundary itself, a carrier, a reception or a transmission, is not of the tick just ended:
the noise moves, and the line stays BUSY. What stood a tick before it is, and the noise stays (R8, R9). -/
theorem test_clean_tick_before_a_start :
    let busy := part.setLine { part.line with indication := .busy }
    let carrier (at_ : Nat) := busy.setLine { busy.line with carrierAt := some at_ }
    let heard (at_ : Nat) := busy.setLine { busy.line with receiver := .receiving [] 0 at_ }
    let sends (at_ : Nat) := busy.setLine { busy.line with receiver := .off, slot := .sending [] at_ }
    let after (s : State) := seen (exec (.cleanTick (-4)) s) (fun t => (t.line.noise, t.line.indication))
    ([carrier 5000, heard 5000, sends 5000].map after).all (· = some (-18, .busy)) = true ∧
    ([carrier 4999, heard 4999, sends 4999].map after).all (· = some (-20, .busy)) = true ∧
    after (carrier 4998) = some (-18, .quiet) := by decide +kernel

/-- R6's test of the computation, and a telegram that passes its check. -/
theorem test_crc : crc16 [0x31, 0x32, 0x33, 0x34, 0x35, 0x36, 0x37, 0x38, 0x39] = 0x29B1 ∧
    checkPasses (telegram 0x30 12 1040 0x40 50 0 []) = true ∧
    crc16 (telegram 0x30 12 1040 0x40 50 0 []) = 0 := by decide +kernel

/-- R7's example, and the ends of the range. -/
theorem test_link_margin : linkMargin (-20) 6 = 6 ∧ linkMargin (-20) (-14) = 0 ∧ linkMargin (-20) 31 = 15 ∧
    linkMargin (-20) 100 = 15 ∧ linkMargin (-20) (-40) = 0 := by decide +kernel

/-! ## The Acceptance Filter: section 2.7 -/

/-- Section 2.7 after its step 4: highest 1003 with 1000 and 1001 seen. -/
def window : SerialWindow := ⟨1003, [2, 3]⟩

theorem test_serial_window : window.sound ∧
    classify (some window) 1002 = .new ∧ acceptSerial (some window) 1002 = ⟨1003, [1, 2, 3]⟩ ∧
    classify (some window) 1003 = .duplicate ∧ classify (some window) 1001 = .duplicate ∧
    acceptSerial (some window) 1040 = ⟨1040, []⟩ ∧ classify (some ⟨1040, [30]⟩) 1007 = .stale ∧
    classify (some ⟨1040, [30]⟩) 1010 = .duplicate ∧ acceptSerial (some ⟨1040, []⟩) 1010 = ⟨1040, [30]⟩ ∧
    classify (some ⟨1040, []⟩) 1008 = .new ∧ classify (some ⟨1040, []⟩) (1040 + 32767) = .new ∧
    classify (some ⟨1040, []⟩) (1040 + 32768) = .stale := by decide +kernel

/-- A telegram of unknown kind, so that nothing but the acceptance itself happens. -/
def plainCopy (serial age : Word) : List Byte := telegram 0xF0 12 serial 0x40 age 0 []

theorem test_discarded_copies :
    let s := receiving part
    (s.runsWith cfg ∧ s.line.receiver = .receiving [] 0 4980 ∧ 4980 + 20 ≤ s.elapsed) ∧
    seen (exec (ends (plainCopy 1040 0 ++ [0])) s) (·.counters.rxCheckFail) = some 0 ∧
    seen (exec (ends ((plainCopy 1040 0).set 9 1)) s) (·.counters.rxCheckFail) = some 1 ∧
    seen (exec (ends (telegram 0xF0 13 1 0x40 0 0 [])) s) (·.counters.rxForeign) = some 1 ∧
    seen (exec (ends (plainCopy 1040 60000)) s) (·.counters.rxAged) = some 1 ∧
    seen (exec (ends (plainCopy 1003 59999)) s) (·.counters.rxStale) = some 1 ∧
    seen (exec .truncatedFrame s) (fun t => (t.counters.rxCheckFail, t.line.receiver)) =
      some (1, .listening) := by decide +kernel

/-- An accepted copy: the telegram is new, its origin known, its age below the limit. -/
theorem test_acceptance : (receiving part).accepts cfg (plainCopy 1040 59999) ∧
    (receiving part).endsReception (plainCopy 1040 59999) ∧
    seen (exec (ends (plainCopy 1040 59999)) (receiving part)) (·.counters.rxOk) = some 1 ∧
    seen (exec (ends (plainCopy 1040 59999)) (receiving part)) (·.origins.entries.map (·.window)) =
      some [some ⟨1040, []⟩, none] := by
  refine ⟨⟨by decide +kernel, by decide +kernel, by decide +kernel, ⟨12, some ⟨1003, [2, 3]⟩⟩,
    by decide +kernel, by decide +kernel⟩, ⟨by decide +kernel, 4980, by decide +kernel, by decide +kernel⟩,
    by decide +kernel, by decide +kernel⟩

/-- An acceptance that is routed to no block, with SILENCE active: it clears, and channel 1 begins its return. -/
theorem test_acceptance_clears_silence :
    let quiet := { Conditions.clear with silence := true }
    let s := receiving ((withUnit .ch1 { normalUnit with state := .fallbackHold, handed := some .off, output := .off }
      part).setMonitor { part.monitor with conditions := quiet, silence := some 0 })
    (s.accepts cfg (plainCopy 1040 0) ∧ s.endsReception (plainCopy 1040 0) ∧ kindOf (plainCopy 1040 0) = 15 ∧
      s.monitor.conditions.silence = true) ∧
    seen (exec (ends (plainCopy 1040 0)) s) (fun t => (t.monitor.conditions, t.channels.ch1.state)) =
      some (.clear, .returnWait 900) := by
  refine ⟨⟨⟨by decide +kernel, by decide +kernel, by decide +kernel, ⟨12, some ⟨1003, [2, 3]⟩⟩,
    by decide +kernel, by decide +kernel⟩, ⟨by decide +kernel, 4980, by decide +kernel, by decide +kernel⟩,
    by decide +kernel, by decide +kernel⟩, by decide +kernel⟩

/-- A part whose place 0 holds this entry. -/
def holding (e : HeardEntry) (s : State) : State :=
  s.setRelay { s.relay with heard := s.relay.heard.set 0 (some e) }

/-- A PENDING entry for (12, 1003) with budget 1, due at this tick. -/
def entry (echoes due : Nat) : HeardEntry :=
  ⟨12, 1003, .pending (storedCopy (telegram 0x20 12 1003 0x17 700 0 [])) 4000 due, echoes, 4000⟩

/-- An echo with more budget replaces the stored copy (R46), and the second suppresses the entry (R47). -/
theorem test_echoes :
    let s := receiving (holding (entry 0 6000) part)
    let echo := telegram 0x20 12 1003 0x42 210 0 []
    (s.runsWith cfg ∧ checkPasses echo = true ∧ (s.origins.find (originOf echo)).isSome = true ∧
      lookup s.relay.heard (originOf echo) (serialOf echo) = some 0 ∧
      entryAt s.relay.heard 0 = some (entry 0 6000)) ∧
    seen (exec (ends echo) s) (fun t => (entryAt t.relay.heard 0).map fun e => e.echoes) =
      some (some 1) ∧
    seen (exec (ends echo) s) (fun t => (entryAt t.relay.heard 0).map fun e => e.relay) =
      some (some (.pending (echo.take 30) 5000 6000)) ∧
    seen (exec (ends echo) (receiving (holding (entry 1 6000) part))) (fun t =>
      (t.counters.suppressed, (entryAt t.relay.heard 0).map fun e => e.relay)) =
        some (1, some .suppressed) := by decide +kernel

/-! ## Relaying -/

/-- Section 3.11: budget 4, hops 2, age 210, residence 44 gives budget 3, hops 3, age 274. -/
theorem test_relayed_copy :
    let stored := storedCopy (telegram 0x20 12 2201 0x42 210 0 [])
    (stored.length = 30 ∧ 1 ≤ budgetOf stored) ∧
    (let copy := relayedCopy stored 44
     budgetOf copy = 3 ∧ hopsOf copy = 3 ∧ ageOf copy = 274 ∧ checkPasses copy = true) := by decide +kernel

theorem test_offers :
    let s := holding (entry 0 5000) part
    let busy := s.setLine { s.line with indication := .busy }
    let waiting := s.setRelay { s.relay with access := .backoff 5000 }
    let fallen := waiting.setRelay { waiting.relay with dueTo := 5000 }
    (fallen.dueAt 5000 ∧ entryAt s.relay.heard 0 = some (entry 0 5000) ∧ s.line.slot = .idle ∧ s.line.indication = .quiet) ∧
    seen (exec (.entryFallsDue 0) s) (fun t => (t.relay.access, t.line.receiver)) =
      some (.transmitting, .off) ∧
    seen (exec (.entryFallsDue 0) busy) (·.relay.access) = some .lineBusy ∧
    seen (exec (.entryFallsDue 0) waiting) (·.relay) = some fallen.relay ∧
    seen (exec .backoffEnd fallen) (·.relay.access) = some .transmitting ∧
    seen (exec .backoffEnd waiting) (·.relay.access) = some .lineQuiet ∧
    seen (exec .backoffEnd (part.setRelay { part.relay with access := .backoff 5000 })) (·.relay.access) =
      some .lineQuiet ∧
    seen (exec .backoffEnd (part.setRelay { part.relay with access := .backoff 5001 })) (·.relay.access) =
      some (.backoff 5001) := by decide +kernel

/-- R49's two orders at a due tick: QUIET taken first finds nothing due, so the falling due offers at once; the
falling due taken first waits, and QUIET then draws a backoff. -/
theorem test_quiet_meets_a_falling_due :
    let s := (holding (entry 0 5000) part).setRelay
      { (holding (entry 0 5000) part).relay with access := .lineBusy }
    let busy := s.setLine { s.line with indication := .busy }
    let quietFirst := seen (exec (.cleanTick (-4)) busy) id
    let dueFirst := seen (exec (.entryFallsDue 0) busy) id
    ¬ busy.dueAt 5000 ∧
    quietFirst.map (·.relay.access) = some .lineQuiet ∧
    (quietFirst.bind fun t => seen (exec (.entryFallsDue 0) t) (·.relay.access)) = some .transmitting ∧
    dueFirst.map (fun t => (t.relay.access, t.relay.dueTo)) = some (.lineBusy, 5000) ∧
    (dueFirst.bind fun t => seen (exec (.cleanTick (-4)) t) (fun u => u.relay.access matches .backoff _)) =
      some true := by decide +kernel

theorem test_transmission_completes :
    let e : HeardEntry := { entry 1 0 with relay := .sending (storedCopy (plainCopy 1003 0)) 4000 }
    let s := (holding e part).setLine { part.line with slot := .sending [] 4980, receiver := .off }
    (s.runsWith cfg ∧ s.line.slot = .sending [] 4980 ∧ entryAt s.relay.heard 0 = some e) ∧
    seen (exec .transmissionCompletion s) (fun t => (t.line.slot, t.line.receiver, t.counters.relayed)) =
      some (.idle, .listening, 1) ∧
    seen (exec .transmissionCompletion (s.setElapsed 4999)) (·.line.receiver) = some .off := by
  decide +kernel

/-- With a memory time of 600 s an entry first heard at tick 4000 expires at tick 64000 (R58). -/
theorem test_entry_expiry :
    let e : HeardEntry := { entry 1 0 with relay := .relayed }
    let s := (holding e part).setElapsed 64000
    (s.runsWith cfg ∧ entryAt s.relay.heard 0 = some e ∧ e.relay.settled = true) ∧
    seen (exec (.entryExpiry 0) s) (fun t => (entryAt t.relay.heard 0).isNone) = some true ∧
    seen (exec (.entryExpiry 0) (s.setElapsed 63999)) (fun t => (entryAt t.relay.heard 0).isNone) =
      some false := by decide +kernel

theorem test_place_for :
    let settled (n : Nat) : Option HeardEntry := some ⟨12, 1, .relayed, 0, n⟩
    placeFor [settled 5, none, settled 3, none] = some 1 ∧ placeFor [settled 5, settled 3, settled 3] = some 1 ∧
    placeFor [some (entry 0 0), some (entry 0 1)] = none := by decide +kernel

/-! ## Network time -/

/-- The part with another clock and slew; tomorrow is a Saturday. -/
def clocked (day : Word) (tick : Nat) (slew : Int) : State :=
  part.setTime { part.time with clock := ⟨day, tick⟩, slew := slew, tomorrow := some .saturday }

/-- What the Timekeeper's clock, slew and classes are. -/
def timeSeen (t : State) : Moment × Int × DayClass × Option DayClass :=
  (t.time.clock, t.time.slew, t.time.today, t.time.tomorrow)

/-- The slew of section 4.10 at a second's end, both signs, and the day rollover by one tick and by two. -/
theorem test_clock_advance :
    ((clocked 9000 4320000 95).running = true ∧ (clocked 9000 4320000 95).time.clock.tick < 8640000) ∧
    seen (exec .clockAdvance (clocked 9000 4320000 95)) timeSeen =
      some (⟨9000, 4320002⟩, 94, .workday, some .saturday) ∧
    seen (exec .clockAdvance (clocked 9000 4320000 (-1))) timeSeen =
      some (⟨9000, 4320000⟩, 0, .workday, some .saturday) ∧
    seen (exec .clockAdvance ((clocked 9000 4320000 95).setElapsed 4999)) timeSeen =
      some (⟨9000, 4320001⟩, 95, .workday, some .saturday) := by decide +kernel

theorem test_rollover :
    seen (exec .clockAdvance (clocked 65535 8639999 0)) timeSeen = some (⟨0, 0⟩, 0, .saturday, none) ∧
    seen (exec .clockAdvance (clocked 9000 8639999 1)) timeSeen = some (⟨9001, 1⟩, 0, .saturday, none) := by
  decide +kernel

/-- The program of section 6.7. -/
def criticalPeak : Program :=
  let first (on off : Nat) : Six Level := Six.of fun c =>
    if channelPlace c < on then .on else if channelPlace c < on + off then .off else .on
  let shoulder : Band := ⟨.shoulder, 2, first 2 2⟩
  { program with
    gridEnable := true
    bands := [⟨.offpeak, 1, .all .on⟩, shoulder, ⟨.peak, 3, first 0 4⟩, shoulder, shoulder,
      ⟨.critical, 4, first 0 5⟩, shoulder, ⟨.peak, 5, first 0 3⟩] ++ List.replicate 8 shoulder
    grid := (List.replicate 14 0 ++ List.replicate 20 1 ++ List.replicate 8 2 ++ List.replicate 6 1) ++
      List.replicate 144 0 }

/-- Section 6.7's window of slot 1, 16:00 to 18:00. -/
def peakWindow : Window := ⟨⟨9010, 960⟩, ⟨9010, 1080⟩, 7, .overlay, 12, 2050⟩

/-- Section 6.7's window of slot 3, 17:30 to 19:30. -/
def criticalWindow : Window := ⟨⟨9010, 1050⟩, ⟨9010, 1170⟩, 5, .replace, 12, 2101⟩

/-- Station W on day 9010 at a tick, with its window table's slots 1 and 3. -/
def evening (tick : Nat) (slot1 slot3 : Option Window) : State :=
  let s := (part.setTime { part.time with clock := ⟨9010, tick⟩ }).setPrograms ⟨none, none, some criticalPeak⟩
  s.setResolver ⟨[none, slot1, none, slot3] ++ List.replicate 20 none, some ⟨1, 305⟩, 2⟩

/-- The resolver's band number, the index, and the slots in use. -/
def resolverSeen (t : State) : Option Nat × Nat × List Nat :=
  (t.resolver.band.map (·.number), t.register,
    (List.range 24).filter fun i => (windowIn t.resolver.windows i).isSome)

/-- Station W at 16:00, 17:00, 17:30, 18:00 and 20:00 (the table of section 6.7), and station V at 18:00. -/
theorem test_evening_of_windows :
    ((evening 5759999 (some peakWindow) none).runsWith cfg ∧
      (evening 5759999 (some peakWindow) none).resolver.index =
        (evening 5759999 (some peakWindow) none).register) ∧
    seen (exec .clockAdvance (evening 5759999 (some peakWindow) none)) resolverSeen =
      some (some 7, 5, [1]) ∧
    seen (exec .clockAdvance (evening 6119999 (some peakWindow) none)) resolverSeen =
      some (some 7, 5, [1]) ∧
    seen (exec .clockAdvance (evening 6299999 (some peakWindow) (some criticalWindow))) resolverSeen =
      some (some 5, 4, [1, 3]) ∧
    seen (exec .clockAdvance (evening 6479999 (some peakWindow) (some criticalWindow))) resolverSeen =
      some (some 5, 4, [3]) := by decide +kernel

/-- At 16:00 a slot boundary meets the start of a window of band 0, which has every channel ON (R120). Taken
first, the boundary hands the grid's band 1 and turns channel 3 OFF, and the window's level then waits for the
dwell; the other way round channel 3 stays ON. The band and the index after both are the window's. -/
theorem test_boundary_meets_a_window_start :
    let s := evening 5759999 (some { peakWindow with band := 0, mode := .replace }) none
    let after (first : Nat) := seen (exec .clockAdvance ({ s with resolver.band := none }.setMeetings [first])) fun t =>
      (resolverSeen t, t.channels.ch3.output, t.channels.ch3.deferred)
    (s.runsWith cfg ∧ s.resolver.index = s.register ∧ s.programs.next = none) ∧
    (s.setTime { s.time with clock := ⟨9010, 5760000⟩ }).clockEvents [⟨9010, 5760000⟩] = [.boundary, .windowStart] ∧
    after 0 = some ((some 0, 1, [1]), .off, some .on) ∧
    after 1 = some ((some 0, 1, [1]), .on, none) := by decide +kernel

/-- An expiry frees the window whose end the clock has reached, and keeps one that ends a minute later (R107). -/
theorem test_free_expired :
    freeExpired ⟨9010, 6480000⟩ [some peakWindow, some criticalWindow, none,
      some { peakWindow with stop := ⟨9010, 1081⟩ }, some { peakWindow with stop := ⟨9009, 1439⟩ }] =
      [none, some criticalWindow, none, some { peakWindow with stop := ⟨9010, 1081⟩ }, none] := by decide +kernel

theorem test_evening_without_windows :
    seen (exec .clockAdvance (evening 7199999 none none)) resolverSeen = some (some 2, 3, []) ∧
    seen (exec .clockAdvance (evening 6400000 (some peakWindow) none)) resolverSeen =
      some (some 1, 2, [1]) ∧
    (let lost := evening 6479999 (some peakWindow) (some criticalWindow)
     seen (exec .clockAdvance (lost.setTime { lost.time with state := .lost })) resolverSeen =
       some (some 2, 1, [1, 3])) := by decide +kernel

/-- Station P at the midnight of section 5.6, and station Q, whose time was LOST there. -/
theorem test_activation_at_midnight :
    let next : Program := { criticalPeak with id := 306, activation := ⟨9001, 0⟩ }
    let p := (clocked 9000 8639999 0).setPrograms ⟨none, some next, some program⟩
    (p.runsWith cfg ∧ p.resolver.index = p.register) ∧
    seen (exec .clockAdvance p) (fun t => (t.programs.next.isNone, t.programs.active.map (·.id), t.register)) =
      some (true, some 306, 1) ∧
    seen (exec .clockAdvance (p.setTime { p.time with state := .lost })) (fun t =>
      (t.programs.next.isNone, t.programs.active.map (·.id))) = some (false, some 305) := by decide +kernel

theorem test_time_countdowns :
    let ending := part.setTime { part.time with hold := 1, lost := 1 }
    let early := (loading 1).setTime { part.time with hold := 1, lost := 2 }
    let stuck := ending.setLoader { ending.loader with load := .unconfigured }
    (ending.running = true ∧ early.running = true ∧ stuck.running = true) ∧
    seen (exec .holdCountdownExpiry ending) (fun t => (t.time.state, t.time.hold, t.register)) =
      some (.holdover, 0, 2) ∧
    seen (exec .lostCountdownExpiry ending) (fun t =>
      (t.time.state, t.monitor.conditions.timeInvalid, t.register, t.resolver.band.map (·.number))) =
        some (.lost, true, 1, some 1) ∧
    seen (exec .holdCountdownExpiry early) (fun t => (t.time.state, t.status.changePending)) =
      some (.holdover, true) ∧
    seen (exec .lostCountdownExpiry early) (fun t => (t.time.state, t.time.lost)) = some (.synced, 1) ∧
    seen (exec .lostCountdownExpiry stuck) (·.time.lost) = some 1 := by decide +kernel

/-- Section 4.10's estimate and offset, section 4.12's estimate across midnight. -/
theorem test_estimates :
    let b : Beacon := ⟨⟨9000, 4320000⟩, .workday, .saturday⟩
    (b.at_.tick < 8640000 ∧ 1375 < 30000 ∧ b.estimate 1375 = ⟨9000, 4321395⟩) ∧
    (clocked 9000 4321300 0).time.judge cfg 5000 ⟨9000, 4321395⟩ = .slew 95 ∧
    (⟨⟨9000, 8639900⟩, .saturday, .sundayHoliday⟩ : Beacon).estimate 150 = ⟨9001, 70⟩ ∧
    (clocked 9000 8639990 0).time.judge cfg 5000 ⟨9001, 70⟩ = .slew 80 ∧
    (⟨⟨65535, 8639999⟩, .special, .special⟩ : Beacon).estimate 0 = ⟨0, 19⟩ ∧
    offsetOf ⟨9000, 0⟩ ⟨9002, 0⟩ = none := by decide +kernel

/-- Station G of section 4.11 after a beacon, with its candidate so far. -/
def station (tick : Nat) (c : Option Candidate) : Timekeeper :=
  { part.time with state := .holdover, clock := ⟨9000, tick⟩, candidate := c }

/-- The four beacons of section 4.11; the threshold of 200 itself, and a candidate 6000 ticks old. -/
theorem test_two_beacon_rule :
    (station 4321300 none).judge cfg 700000 ⟨9000, 4340000⟩ = .holdCandidate ∧
    (station 4322500 (some ⟨⟨9000, 4340000⟩, 700000⟩)).judge cfg 701200 ⟨9000, 4361200⟩ = .holdCandidate ∧
    (station 4323800 (some ⟨⟨9000, 4361200⟩, 701200⟩)).judge cfg 702500 ⟨9000, 4342540⟩ = .holdCandidate ∧
    (station 4325000 (some ⟨⟨9000, 4342540⟩, 702500⟩)).judge cfg 703700 ⟨9000, 4343745⟩ = .step ∧
    (station 4325000 none).judge cfg 0 ⟨9000, 4325200⟩ = .slew 200 ∧
    (station 4325000 none).judge cfg 0 ⟨9000, 4325201⟩ = .holdCandidate ∧
    (station 4325000 (some ⟨⟨9000, 4330000⟩, 0⟩)).judge cfg 5999 ⟨9000, 4335999⟩ = .step ∧
    (station 4325000 (some ⟨⟨9000, 4330000⟩, 0⟩)).judge cfg 6000 ⟨9000, 4336000⟩ = .holdCandidate ∧
    Timekeeper.cold.judge cfg 0 ⟨9000, 1⟩ = .firstSetting := by decide +kernel

/-- R79's four cases. -/
theorem test_day_classes :
    let b : Beacon := ⟨⟨9000, 0⟩, .saturday, .sundayHoliday⟩
    ((clocked 9000 0 0).time.takeClasses b).tomorrow = some .sundayHoliday ∧
    ((clocked 9001 0 0).time.takeClasses b).today = .sundayHoliday ∧
    ((clocked 8999 0 0).time.takeClasses b).tomorrow = some .saturday ∧
    (clocked 9002 0 0).time.takeClasses b = (clocked 9002 0 0).time := by decide +kernel

/-- The state hears a copy that its filter accepts. -/
def hears (s : State) (copy : List Byte) : Bool :=
  s.running && s.loader.load = .configured cfg && copy.length = 32 && checkPasses copy &&
  s.line.receiver = .receiving [] 0 4980 && s.elapsed = 5000 &&
  (lookup s.relay.heard (originOf copy) (serialOf copy)).isNone && ageOf copy < cfg.ageLimit &&
  (s.origins.find (originOf copy)).any fun e => classify e.window (serialOf copy) = .new

/-- It then meets the hypotheses of the statements about acceptances. -/
theorem hears_accepts {s : State} {copy : List Byte} (h : hears s copy = true) :
    s.runsWith cfg ∧ s.endsReception copy ∧ s.accepts cfg copy := by
  simp only [hears, Bool.and_eq_true, decide_eq_true_eq, Option.isNone_iff_eq_none, Option.any_eq_true] at h
  obtain ⟨⟨⟨⟨⟨⟨⟨⟨h1, h2⟩, h3⟩, h4⟩, h5⟩, h6⟩, h7⟩, h8⟩, h9⟩ := h
  obtain ⟨e, he⟩ := h9
  exact ⟨⟨h1, h2⟩, ⟨h3, 4980, h5, by omega⟩, h4, h7, h8, e, he⟩

/-- The TIME telegram of section 4.10, with another age if asked. -/
def beacon (age : Word) : List Byte :=
  telegram 0x10 12 1040 0x40 age 0 [0x23, 0x28, 0x41, 0xEB, 0x00, 0, 1]

/-- Section 4.10 at the station; the same copy at age 3000 is not valid; UNSET it sets the clock, and in
HOLDOVER it confirms a candidate beyond tolerance. -/
theorem test_beacon_at_the_station :
    let s := receiving (clocked 9000 4321300 0)
    (s.runsWith cfg ∧ s.endsReception (beacon 1375) ∧ s.accepts cfg (beacon 1375)) ∧ kindOf (beacon 1375) = 1 ∧
    seen (exec (ends (beacon 1375)) s) timeSeen = some (⟨9000, 4321300⟩, 95, .workday, some .saturday) ∧
    seen (exec (ends (beacon 1375)) s) (fun t => (t.counters.timeAccepted, t.time.hold, t.time.lost)) =
      some (1, 7200, 129600) := by
  exact ⟨hears_accepts (by decide +kernel), by decide +kernel, by decide +kernel, by decide +kernel⟩

theorem test_beacon_not_valid : hears (receiving part) (beacon 3000) = true ∧
    seen (exec (ends (beacon 3000)) (receiving part)) (fun t => (t.counters.timeRejected, t.time)) =
      some (1, part.time) := by decide +kernel

theorem test_beacon_sets_and_steps :
    let unset := receiving (part.setTime .cold)
    let beyond := receiving (part.setTime { part.time with clock := ⟨9000, 1⟩, candidate := some ⟨⟨9000, 4321200⟩, 4900⟩ })
    (hears unset (beacon 1375) = true ∧ hears beyond (beacon 1375) = true) ∧
    seen (exec (ends (beacon 1375)) unset) (fun t => (t.time.clock, t.time.state, t.counters.timeAccepted)) =
      some (⟨9000, 4321395⟩, .synced, 1) ∧
    seen (exec (ends (beacon 1375)) beyond) (fun t =>
      (t.time.clock.tick, t.counters.steps, t.monitor.stepHold, t.monitor.conditions.timeStep)) =
        some (4321395, 1, 300, true) ∧
    seen (exec (ends (beacon 1375)) beyond) (·.monitor.stepHoldSet) = some true := by decide +kernel

/-- A step examines the pending program: one whose time the clock now has reached becomes active (R95). -/
theorem test_step_activates :
    let next : Program := { program with id := 306, activation := ⟨9000, 4321395⟩ }
    let s := (receiving (part.setTime { part.time with clock := ⟨9000, 1⟩, candidate := some ⟨⟨9000, 4321200⟩, 4900⟩ })).setPrograms
      ⟨none, some next, some program⟩
    hears s (beacon 1375) = true ∧
    seen (exec (ends (beacon 1375)) s) (fun t => t.programs.active.map (·.id)) = some (some 306) := by decide +kernel

/-! ## Programs -/

/-- A program image of 144 bytes: this id, activation and check, then its default band byte, band table and
grid; bands 3 and 9 carry values that are clamped, as in section 5.6. -/
def programImage (id day : Word) (tick : Nat) (check : Word) : List Byte :=
  let table : List Byte := (List.range 16).flatMap fun n =>
    if n = 3 then [0xC9, 0x3F] else if n = 9 then [0x40, 0x00] else [0x42, 0x2A]
  bytesOf id ++ bytesOf day ++ [BitVec.ofNat 8 (tick / 65536), BitVec.ofNat 8 (tick / 256), BitVec.ofNat 8 tick,
    0x81] ++ bytesOf check ++ (table ++ List.replicate 96 0x12) ++ List.replicate 6 0xFF

/-- Program 305 for day 9001 tick 0; its check was computed apart from the model. -/
def image305 : List Byte := programImage 305 9001 0 0x2C0F

/-- The same with an activation tick of 8,640,000, which is no tick of a day. -/
def imageNoDay : List Byte := programImage 305 9001 8640000 0x685A

/-- A program check from the values its register takes after each quarter of the bytes it covers. -/
theorem programPasses_of {image : List Byte} (a b c : Word)
    (h1 : ((image.take 8 ++ (image.drop 10).take 128).take 34).foldl crcByte 0xFFFF#16 = a)
    (h2 : (((image.take 8 ++ (image.drop 10).take 128).drop 34).take 34).foldl crcByte a = b)
    (h3 : ((((image.take 8 ++ (image.drop 10).take 128).drop 34).drop 34).take 34).foldl crcByte b = c)
    (h4 : ((((image.take 8 ++ (image.drop 10).take 128).drop 34).drop 34).drop 34).foldl crcByte c =
      wordAt image 8) : programPasses image = true := by
  generalize hx : image.take 8 ++ (image.drop 10).take 128 = x at h1 h2 h3 h4
  have split (n : Nat) (ys : List Byte) (r : Word) :
      ys.foldl crcByte r = (ys.drop n).foldl crcByte ((ys.take n).foldl crcByte r) := by
    rw [← List.foldl_append, List.take_append_drop]
  simp only [programPasses, crc16, hx, decide_eq_true_eq]
  rw [split 34, h1, split 34, h2, split 34, h3, h4]

theorem test_program_checks : programPasses image305 = true ∧ programPasses imageNoDay = true :=
  ⟨programPasses_of 0x028F 0xF5F4 0x8A93 (by decide +kernel) (by decide +kernel) (by decide +kernel)
     (by decide +kernel),
   programPasses_of 0x69F3 0xA42E 0xC43C (by decide +kernel) (by decide +kernel) (by decide +kernel)
     (by decide +kernel)⟩

/-- The bands 3 and 9 of section 5.6: class code 6 and register 9, and register index 0, are clamped. -/
theorem test_program_is_clamped :
    let p := programOf image305
    image305.length = 144 ∧ p.activation.tick < 8640000 ∧ p.band 3 = ⟨.critical, 8, .all .on⟩ ∧
    (p.band 9).register = 1 ∧ (p.band 0) = ⟨.shoulder, 2, ⟨.off, .on, .off, .on, .off, .on⟩⟩ ∧
    p.defaultBand = 1 ∧ p.gridEnable = true ∧ p.gridBand .special 8639999 = 2 ∧ p.gridBand .workday 0 = 1 := by
  decide +kernel

/-- The SEGMENT telegram of one index of program 305. -/
def segment (origin : Byte) (id : Word) (index : Byte) : List Byte :=
  telegram 0x30 origin 1040 0x40 0 0 (bytesOf id ++ [index] ++ (image305.drop (18 * index.toNat)).take 18)

/-- The part with a staging record, and program 304 active. -/
def staging (g : Option Staging) : State :=
  receiving (part.setPrograms ⟨g, none, some { program with id := 304 }⟩)

/-- A record of program 305 that lacks segment 2 only. -/
def lacksTwo : Staging :=
  ⟨305, (List.range 8).map fun i => if i = 2 then none else some ((image305.drop (18 * i)).take 18), 838⟩

/-- The staging record, as its id, its count of segments and its countdown, or as nothing. -/
def stagingSeen (t : State) : List Nat :=
  t.programs.staging.elim [] fun g => [g.id.toNat, (g.segments.filter Option.isSome).length, g.countdown]

/-- Section 5.6: a record opened; origin 40 is not primary; an index of 8 is not collected; a newer id drops
the record, an older one is ignored, the same fills it (R90, R91). -/
theorem test_segments :
    let g := staging (some lacksTwo)
    (hears (staging none) (segment 12 305 7) = true ∧ hears g (segment 40 77 2) = true ∧
      hears g (segment 12 306 2) = true ∧ kindOf (segment 12 305 7) = 3 ∧
      addresses cfg (targetOf (segment 12 305 7)) = true) ∧
    seen (exec (ends (segment 12 305 7)) (staging none)) stagingSeen = some [305, 1, 900] ∧
    seen (exec (ends (segment 12 305 8)) (staging none)) stagingSeen = some [] ∧
    seen (exec (ends (segment 40 77 2)) g) stagingSeen = some [305, 7, 838] ∧
    seen (exec (ends (segment 12 306 2)) g) stagingSeen = some [306, 1, 900] ∧
    seen (exec (ends (segment 12 304 2)) g) stagingSeen = some [305, 7, 838] ∧
    seen (exec (ends (segment 12 305 3)) g) stagingSeen = some [305, 7, 838] := by decide +kernel

/-- Segment 2 of the second pass completes the assembly, and what is assembled is the image (section 5.6). -/
theorem test_assembly_completes :
    let g := takeSegment (some lacksTwo) 305 2 ((image305.drop 36).take 18)
    hears (staging (some lacksTwo)) (segment 12 305 2) = true ∧ none ∉ g.segments ∧
    assembledImage g.segments = image305 := by decide +kernel

/-- The ids of the pending and the active program, 0 for none. -/
def idsSeen (t : State) : List Nat :=
  [t.programs.next.elim 0 (·.id.toNat), t.programs.active.elim 0 (·.id.toNat)]

/-- A complete program whose check passes: pending at 21:00 of day 9000, active at once once its time has come,
not newer than its own id, and no tick of a day (R93, R95). -/
theorem test_completed_programs :
    idsSeen ((staging none).complete cfg image305) = [305, 304] ∧
    idsSeen (((staging none).setTime { part.time with clock := ⟨9001, 0⟩ }).complete cfg image305) = [0, 305] ∧
    idsSeen (part.complete cfg image305) = [0, 305] ∧ (part.complete cfg image305).counters.progDiscarded = 1 ∧
    (part.complete cfg image305).counters.progComplete = 0 ∧
    ((staging none).complete cfg imageNoDay).counters.progDiscarded = 1 := by
  simp only [State.complete, test_program_checks.1, test_program_checks.2]
  decide +kernel

theorem test_assembly_timeout :
    let held (n : Nat) := staging (some { lacksTwo with countdown := n })
    (held 2).runsWith cfg ∧
    seen (exec .assemblyTimeout (held 2)) stagingSeen = some [305, 7, 1] ∧
    seen (exec .assemblyTimeout (held 1)) (fun t => (t.programs.staging.isNone, t.counters.progDiscarded)) =
      some (true, 1) ∧
    seen (exec .assemblyTimeout (staging none)) (·.counters.progDiscarded) = some 0 := by decide +kernel

/-! ## Tariff resolution -/

/-- Section 6.7: at 17:00 the OVERLAY of equal rank is taken, at 19:00 the REPLACE, in LOST the WORKDAY grid;
of two windows the higher rank, and of equals the lower slot. -/
theorem test_resolved_band :
    let at_ (tick : Nat) (state : TimeState) : Timekeeper :=
      { part.time with clock := ⟨9010, tick⟩, state := state }
    let critical7 : Window := { peakWindow with band := 5 }
    let peak2 : Window := { peakWindow with band := 2 }
    resolvedBand criticalPeak (at_ 6120000 .synced) [none, some peakWindow] = (7, .overlay) ∧
    resolvedBand criticalPeak (at_ 6840000 .synced) [some peakWindow, some criticalWindow] = (5, .replace) ∧
    resolvedBand criticalPeak (at_ 6840000 .lost) [some peakWindow, some criticalWindow] = (2, .invalidTime) ∧
    resolvedBand criticalPeak (at_ 5760000 .synced) [some peakWindow, some critical7] = (5, .overlay) ∧
    resolvedBand criticalPeak (at_ 5760000 .synced) [some peak2, some peakWindow] = (2, .overlay) ∧
    resolvedBand criticalPeak (at_ 6480000 .synced) [some peakWindow] = (2, .grid) ∧
    resolvedBand program (at_ 6480000 .synced) [] = (1, .default) ∧
    resolvedBand program (at_ 6480000 .unset) [] = (1, .invalidTime) := by decide +kernel

/-- An OVERLAY window whose band ranks below the grid's is not taken (R111). -/
theorem test_overlay_below_the_grid :
    resolvedBand criticalPeak { part.time with clock := ⟨9010, 6120000⟩ } [some { peakWindow with band := 1 }] =
      (2, .grid) := by decide +kernel

/-- A resolution that hands a band and an index, and one that finds what was last handed. -/
theorem test_resolution :
    let s := evening 6120000 (some peakWindow) none
    (s.resolver.index = s.register ∧ cfg.inRange) ∧
    ((s.resolve cfg).channels.ch5.band = some ⟨7, .peak, .on⟩ ∧ (s.resolve cfg).register = 5 ∧
      (s.resolve cfg).channels.ch1.output = .off ∧ (s.resolve cfg).status.changePending = true) := by decide +kernel

theorem test_resolution_holds_programs : criticalPeak.inRange ∧
    (evening 6120000 (some peakWindow) none).programs.ordered := by
  refine ⟨by decide +kernel, ?_, ?_, ?_⟩ <;> decide +kernel

theorem test_resolution_again : part.resolve cfg = part := by decide +kernel

/-- A telegram with an order at the station, sent by origin 12. -/
def order (serial age : Word) (code set : Byte) (parameters : List Byte) : List Byte :=
  telegram 0x20 12 serial 0x40 age 0 ([code, set] ++ parameters)

/-- SET WINDOW's parameters: its slot, minutes of day 9010, and band and mode. -/
def windowOrder (serial : Word) (slot : Byte) (start stop : Word) (bandMode : Byte) : List Byte :=
  order serial 0 5 0 ([slot, 0x23, 0x32] ++ bytesOf start ++ [0x23, 0x32] ++ bytesOf stop ++ [bandMode])

/-- What a window order counts and leaves. -/
def windowSeen (t : State) : Nat × Nat × List Nat :=
  (t.counters.ordersApplied, t.counters.ordersRefused, (resolverSeen t).2.2)

/-- Station W as it hears orders; its newest serial is 1003 here, and its window's setters are older. -/
def hearing (slot1 slot3 : Option Window) : State := receiving (evening 6280000 slot1 slot3)

/-- Section 6.7's window orders: one written, one superseded, one extended; slots 23 and 24, and an end at
the start. -/
theorem test_set_window :
    let held : Window := { criticalWindow with setSerial := 1021 }
    let s := hearing (some peakWindow) (some held)
    let lifted := s.setMonitor { s.monitor with silence := none }
    (hears s (windowOrder 1040 3 1050 1200 0x85) = true ∧ kindOf (windowOrder 1040 3 1050 1200 0x85) = 2 ∧
      addresses cfg (targetOf (windowOrder 1040 3 1050 1200 0x85)) = true ∧ s.resolver.windows.length = 24) ∧
    seen (exec (ends (windowOrder 1040 3 1050 1200 0x85)) lifted) (fun t =>
      (windowIn t.resolver.windows 3, windowSeen t)) =
        some (some ⟨⟨9010, 1050⟩, ⟨9010, 1200⟩, 5, .replace, 12, 1040⟩, 1, 0, [1, 3]) ∧
    seen (exec (ends (windowOrder 1020 3 1050 1200 0x85)) s) windowSeen = some (0, 1, [1, 3]) ∧
    seen (exec (ends (windowOrder 1040 23 1050 1051 0x85)) s) windowSeen = some (1, 0, [1, 3, 23]) ∧
    seen (exec (ends (windowOrder 1040 24 1050 1051 0x85)) s) windowSeen = some (0, 1, [1, 3]) ∧
    seen (exec (ends (windowOrder 1040 3 1050 1050 0x85)) s) windowSeen = some (0, 1, [1, 3]) := by
  decide +kernel

/-- CLEAR WINDOW: section 6.7's late one is refused; slots 23 and 24; and 255 keeps what supersedes it. -/
theorem test_clear_window :
    let held : Window := { criticalWindow with setSerial := 1021 }
    let s := hearing (some { peakWindow with setSerial := 1010 }) (some held)
    let clear (serial : Word) (slot : Byte) := order serial 0 6 0 [slot]
    hears s (clear 1020 3) = true ∧
    seen (exec (ends (clear 1020 3)) s) windowSeen = some (0, 1, [1, 3]) ∧
    seen (exec (ends (clear 1040 3)) s) windowSeen = some (1, 0, [1]) ∧
    seen (exec (ends (clear 1040 23)) s) windowSeen = some (1, 0, [1, 3]) ∧
    seen (exec (ends (clear 1040 24)) s) windowSeen = some (0, 1, [1, 3]) ∧
    seen (exec (ends (clear 1020 255)) s) windowSeen = some (1, 0, [3]) := by decide +kernel

/-! ## Orders and overrides -/

/-- The clamps of the orders' parameters at their ends, the code outside the eight, and the channel set. -/
theorem test_orders_are_read :
    orderOf [1, 0, 0xFF, 0x04, 0x39, 30, 0, 120] = .record (.switch .on 1080 30 120) ∧
    orderOf [2, 0, 0, 9, 0x0E, 0x11, 0x04, 0x38, 2] = .record (.cycle 10 3600 1080 false true) ∧
    orderOf [3, 0, 0xFB, 0xC7] = .record (.adjust (-1080)) ∧ orderOf [3, 0, 0xFF, 0xFF] = .record (.adjust (-1)) ∧
    orderOf [3, 0, 0x80, 0] = .record (.adjust (-1080)) ∧ orderOf [3, 0, 0x7F, 0xFF] = .record (.adjust 1080) ∧
    orderOf [4, 0, 2] = .record (.cancel false) ∧
    orderOf [5, 0, 3, 0x23, 0x32, 0xFC, 0x1A, 0x23, 0x32, 0x05, 0xA0, 0x85] =
      .setWindow 3 ⟨9010, 1050⟩ ⟨9010, 1439⟩ 5 .replace ∧
    orderOf [6, 0, 255] = .clearWindow 255 ∧ orderOf [7, 0, 1] = .forceSafe true ∧ orderOf [8, 0] = .release ∧
    orderOf [0, 0] = .unknown ∧ orderOf [9, 0] = .unknown := by decide +kernel

theorem test_channel_set : channelList.map (namesChannel [1, 0xE5]) = [true, false, true, false, false, true] := by
  decide +kernel

/-- Section 7.10's SWITCH of two hours at a stagger slot, with its age. -/
def shed (slot age : Nat) : Work := (Work.idle normalUnit).order plain slot 12 3010 age (.switch .off 0 30 120)

/-- The table of section 7.10. -/
theorem test_staggered_switch :
    (plain.used = true ∧ normalUnit.override.source = none) ∧
    (shed 0 2450).unit.override.imposed = .force .off (.run (.left 7176)) ∧
    (shed 3 2450).unit.override.imposed = .force .off (.run (.left 7197)) ∧
    (shed 10 2450).unit.override.imposed = .force .off (.delay 46 (.left 7200)) ∧
    (shed 128 2450).unit.override.imposed = .force .off (.delay 876 (.left 7200)) ∧
    (shed 255 2450).unit.override.imposed = .force .off (.delay 1768 (.left 7200)) ∧
    (shed 255 2450).applied = 1 ∧ (shed 0 2450).unit.output = .off := by decide +kernel

/-- The superseding test where its sentence and its table meet and part (R126; log entry 30). -/
theorem test_superseding_bounds :
    supersededBy (some (.remote 12 3010)) 12 3009 = true ∧ supersededBy (some (.remote 12 3010)) 12 3010 = false ∧
    supersededBy (some (.remote 12 3010)) 12 (3010 - 32767) = true ∧
    supersededBy (some (.remote 12 3010)) 12 (3010 - 32768) = false ∧
    supersededBy (some (.remote 12 3010)) 13 3009 = false ∧ supersededBy (some .boost) 12 3009 = false := by
  decide +kernel

/-- R128's cases where they meet: the delay just over, the run just over, and until cancelled. -/
theorem test_switch_cases :
    (shed 10 7000).unit.override.imposed = .force .off (.run (.left 7200)) ∧
    (shed 10 6999).unit.override.imposed = .force .off (.delay 1 (.left 7200)) ∧
    (shed 0 719999).unit.override.imposed = .force .off (.run (.left 1)) ∧
    shed 0 720000 = ⟨normalUnit, false, 0, 1⟩ ∧
    ((Work.idle normalUnit).order plain 0 12 3010 5000 (.switch .on 0 0 0)).unit.override =
      ⟨.force .on (.run .indefinite), some (.remote 12 3010)⟩ ∧
    ((Work.idle normalUnit).order plain 255 12 3010 0 (.switch .on 1080 255 0)).unit.override.imposed =
      .force .on (.delay 65535 .indefinite) := by decide +kernel

/-- An order at channel 3 of station M (section 7.11). -/
def atM (i : Imposed) (source : Word) (serial : Word) (age : Nat) (o : ChannelOrder) : Work :=
  (Work.idle { normalUnit with override := ⟨i, some (.remote 12 source)⟩ }).order plain 128 12 serial age o

/-- Station M's CYCLE of 12,000 as it stands at 12,300. -/
def running : Cycle := ⟨600, 300, .on, 150, .left 3299, none, false⟩

/-- Section 7.11: the CYCLE taken at once, the one staged, and the superseded ADJUST. -/
theorem test_cycle_orders :
    (atM (.force .off (.run (.left 6076))) 3010 3020 150 (.cycle 600 300 60 true false)).unit.override =
      ⟨.cycle ⟨600, 300, .off, 150, .left 3599, none, false⟩, some (.remote 12 3020)⟩ ∧
    (atM (.cycle running) 3020 3031 80 (.cycle 300 300 30 true false)).unit.override =
      ⟨.cycle { running with staged := some ⟨300, 300, 30⟩ }, some (.remote 12 3031)⟩ ∧
    (atM (.cycle running) 3031 3012 0 (.adjust 30)).refused = 1 ∧
    (atM (.cycle running) 3020 3031 80 (.cycle 300 300 0 false true)).unit.override.imposed =
      .cycle ⟨300, 300, .off, 300, .indefinite, none, false⟩ ∧
    (atM .none 3020 3031 5999 (.cycle 300 300 1 false true)).unit.override.imposed =
      .cycle ⟨300, 300, .off, 300, .left 1, none, false⟩ ∧
    (atM .none 3020 3031 6000 (.cycle 300 300 1 false true)).refused = 1 ∧
    cycleRecord 255 0 600 300 0 true = some (.cycle ⟨600, 300, .on, 4, .indefinite, none, false⟩) := by
  decide +kernel

/-- R126 at a record of another origin, of a boost and of the order's own serial, which pass. -/
theorem test_superseding_passes :
    let judged (source : Source) (o : ChannelOrder) := (Work.idle { normalUnit with
      override := ⟨.none, some source⟩ }).order plain 128 12 3012 0 o
    (judged (.remote 12 3013) (.cancel true)).refused = 1 ∧ (judged (.remote 12 3012) (.cancel true)).applied = 1 ∧
    (judged (.remote 40 3013) (.cancel true)).applied = 1 ∧ (judged .boost (.cancel true)).applied = 1 := by
  decide +kernel

/-- ADJUST at its ends (R137), CANCEL (R138, R139), and a channel not used (R124). -/
theorem test_adjust_and_cancel :
    (atM (.force .on (.run (.left 60))) 1 2 0 (.adjust (-1))).unit.override.imposed = .none ∧
    (atM (.force .on (.run (.left 61))) 1 2 0 (.adjust (-1))).unit.override.imposed =
      .force .on (.run (.left 1)) ∧
    (atM (.force .on (.delay 7 (.left 60000))) 1 2 0 (.adjust 1080)).unit.override.imposed =
      .force .on (.delay 7 (.left 65535)) ∧
    (atM (.force .on (.run .indefinite)) 1 2 0 (.adjust 1)).refused = 1 ∧ (atM .none 1 2 0 (.adjust 1)).refused = 1 ∧
    (atM (.cycle running) 1 2 0 (.cancel true)).unit.override.imposed = .cycle { running with finish := true } ∧
    (atM (.cycle running) 1 2 0 (.cancel false)).unit.override.imposed = .none ∧
    (atM (.force .on (.run .indefinite)) 1 2 0 (.cancel true)).unit.override = ⟨.none, some (.remote 12 2)⟩ ∧
    (Work.idle normalUnit).order { plain with used := false } 0 12 1 0 (.adjust 1) = Work.idle normalUnit := by
  decide +kernel

/-- Each channel's override kind. -/
def kindsSeen (t : State) : List Nat := channelList.map fun c => (t.channels.get c).override.imposed.kind

/-- The orders counted applied and refused. -/
def ordersSeen (t : State) : List Nat := [t.counters.ordersApplied, t.counters.ordersRefused]

/-- A SWITCH to channels 1, 3 and the unused 6; codes 0 and 9. -/
theorem test_switch_at_the_station :
    let copy := order 1040 0 1 0x25 [0, 0, 0, 0, 0, 0]
    (hears (receiving part) copy = true ∧ kindOf copy = 2 ∧ addresses cfg (targetOf copy) = true ∧
      (receiving part).monitor.conditions.silence = false) ∧
    seen (exec (ends copy) (receiving part)) kindsSeen = some [2, 0, 2, 0, 0, 0] ∧
    seen (exec (ends copy) (receiving part)) ordersSeen = some [2, 0] ∧
    seen (exec (ends (order 1040 0 9 0x3F [])) (receiving part)) ordersSeen = some [0, 1] ∧
    seen (exec (ends (order 1040 0 0 0x3F [])) (receiving part)) ordersSeen = some [0, 1] := by decide +kernel

/-- FORCE SAFE and RELEASE at the station, to channels 1 and 2. -/
theorem test_safe_orders_at_the_station :
    let waiting := withUnit .ch2 { normalUnit with state := .releaseWait, output := .off, handed := some .off }
      (receiving part)
    seen (exec (ends (order 1040 0 7 3 [1])) (receiving part)) (fun t =>
      channelList.map fun c => (t.channels.get c).state.code) = some [1, 1, 0, 0, 0, 0] ∧
    seen (exec (ends (order 1040 0 7 3 [1])) (receiving part)) ordersSeen = some [2, 0] ∧
    hears waiting (order 1040 0 8 3 []) = true ∧
    seen (exec (ends (order 1040 0 8 3 [])) waiting) (fun t =>
      (t.channels.ch2.state, t.channels.ch2.output)) = some (.normal, .on) ∧
    seen (exec (ends (order 1040 0 8 3 [])) waiting) ordersSeen = some [1, 0] := by decide +kernel

/-- What channel 1 imposes after a command. -/
def stepped (cmd : Instr) (i : Imposed) : Option Imposed :=
  seen (exec cmd (withUnit .ch1 (overridden i) part)) (·.channels.ch1.override.imposed)

theorem test_delay_and_run_ends :
    (withUnit .ch1 (overridden (.force .off (.delay 1 (.left 9)))) part).runsWith cfg ∧
    stepped (.delayEnd .ch1) (.force .off (.delay 2 (.left 9))) = some (.force .off (.delay 1 (.left 9))) ∧
    stepped (.delayEnd .ch1) (.force .off (.delay 1 (.left 9))) = some (.force .off (.run (.left 9))) ∧
    seen (exec (.delayEnd .ch1) (withUnit .ch1 (overridden (.force .off (.delay 1 (.left 9)))) part))
      (·.channels.ch1.output) = some .off ∧
    stepped (.runEnd .ch1) (.force .off (.run (.left 2))) = some (.force .off (.run (.left 1))) ∧
    stepped (.runEnd .ch1) (.force .off (.run (.left 1))) = some .none ∧
    stepped (.runEnd .ch1) (.force .off (.run .indefinite)) = some (.force .off (.run .indefinite)) ∧
    stepped (.runEnd .ch1) .none = some .none := by decide +kernel

/-- Section 7.11 at 12,150, 12,450, 13,050 and 14,250, a finish, and a portion under way. -/
theorem test_portion_ends :
    stepped (.portionEnd .ch1) (.cycle ⟨600, 300, .off, 1, .left 3450, none, false⟩) =
      some (.cycle ⟨600, 300, .on, 300, .left 3449, none, false⟩) ∧
    stepped (.portionEnd .ch1) (.cycle ⟨600, 300, .on, 1, .left 3150, some ⟨300, 300, 30⟩, false⟩) =
      some (.cycle ⟨300, 300, .off, 300, .left 1800, none, false⟩) ∧
    stepped (.portionEnd .ch1) (.cycle ⟨300, 300, .on, 1, .left 1201, none, false⟩) =
      some (.cycle ⟨300, 300, .off, 300, .left 1200, none, false⟩) ∧
    stepped (.portionEnd .ch1) (.cycle ⟨300, 300, .on, 1, .left 1, none, false⟩) = some .none ∧
    stepped (.portionEnd .ch1) (.cycle ⟨300, 300, .on, 1, .indefinite, none, true⟩) = some .none ∧
    stepped (.portionEnd .ch1) (.cycle ⟨300, 300, .on, 2, .left 2, none, true⟩) =
      some (.cycle ⟨300, 300, .on, 1, .left 1, none, true⟩) := by decide +kernel

/-- R141: an override against a band's action, and against CRITICAL. -/
theorem test_requested_level :
    let under (i : Imposed) (cls : BandClass) (action : Level) : Level :=
      ({ overridden i with band := some ⟨1, cls, action⟩ } : ChannelUnit).requested plain
    under (.force .on (.run .indefinite)) .peak .off = .on ∧
    under (.force .on (.run .indefinite)) .critical .off = .off ∧
    under (.force .off (.run .indefinite)) .critical .on = .off ∧
    under (.force .off (.delay 1 .indefinite)) .peak .on = .on ∧
    under (.cycle running) .peak .off = .off ∧ under (.cycle running) .peak .on = .on ∧
    ({ normalUnit with band := none } : ChannelUnit).requested plain = .off ∧
    ({ normalUnit with state := .releaseWait } : ChannelUnit).requested plain = .off ∧
    normalUnit.requested { plain with used := false } = .off := by decide +kernel

/-! ## Fallback and return -/

/-- Section 8.11's channels 1 to 3 at slot 64, and channel 1 at slot 255. -/
theorem test_return_countdowns :
    plain.returnSeconds 64 = 600 ∧ { plain with returnBase := 10, returnSpread := 30 }.returnSeconds 64 = 1050 ∧
    { plain with returnBase := 2, returnSpread := 10 }.returnSeconds 64 = 270 ∧ plain.returnSeconds 255 = 1495 := by
  decide +kernel

/-- A condition at a channel: entry, entry while there, the last to clear, another still active, no automatic
return, a countdown of 0, and a condition outside the mask. -/
theorem test_conditions_at_a_channel :
    let silence : Conditions := { Conditions.clear with silence := true }
    let held : ChannelUnit := { normalUnit with state := .fallbackHold, handed := some .off, output := .off }
    let after (cc : ChannelConfig) (active : Conditions) (k : Condition) (u : ChannelUnit) : ChannelState :=
      ((Work.idle u).stationCondition cc 64 active k).unit.state
    after plain silence .silence normalUnit = .fallbackHold ∧
    ((Work.idle normalUnit).stationCondition plain 64 silence .silence).unit.output = .off ∧
    (Work.idle held).stationCondition plain 64 silence .silence = Work.idle held ∧
    after plain .clear .silence held = .returnWait 600 ∧
    after plain { Conditions.clear with noProgram := true } .silence held = .fallbackHold ∧
    after { plain with noAutoReturn := true } .clear .silence held = .releaseWait ∧
    after { plain with returnBase := 0, returnSpread := 0 } .clear .silence held = .normal ∧
    after plain { Conditions.clear with mainsFreq := true } .mainsFreq normalUnit = .normal := by decide +kernel

/-- Section 8.11 at 450, 500, 510, 800 and 1,520. -/
theorem test_force_safe_and_release :
    let held : ChannelUnit := { normalUnit with state := .fallbackHold, forced := true, setter := some (12, 4100),
                                                handed := some .off, output := .off }
    let waiting : ChannelUnit := { held with state := .returnWait 600, forced := false, setter := some (12, 4101) }
    let force (serial : Word) (on : Bool) (u : ChannelUnit) : Work :=
      (Work.idle u).forceSafe plain 64 .clear 12 serial on
    (force 4100 true normalUnit).unit.state = .fallbackHold ∧
    (force 4101 false held).unit.state = .returnWait 600 ∧
    force 4098 true waiting = ⟨waiting, false, 0, 1⟩ ∧
    ((Work.idle held).forceSafe plain 64 { Conditions.clear with silence := true } 12 4101 false).unit.state =
      .fallbackHold ∧
    ((Work.idle waiting).release plain).unit.state = .normal ∧ ((Work.idle waiting).release plain).unit.output = .on ∧
    (Work.idle held).release plain = ⟨held, false, 0, 1⟩ ∧
    (Work.idle normalUnit).release plain = Work.idle normalUnit := by decide +kernel

/-- The part with another monitor. -/
def monitored (f : Monitor → Monitor) : State := part.setMonitor (f part.monitor)

theorem test_silence_countdown :
    let at_ (n : Option Nat) := monitored fun m => { m with silence := n }
    ((at_ (some 1)).runsWith cfg ∧ (at_ (some 1)).monitor.conditions.silence = false) ∧
    seen (exec .silenceExpiry (at_ (some 2))) (·.monitor.silence) = some (some 1) ∧
    seen (exec .silenceExpiry (at_ (some 1))) (fun t =>
      (t.monitor.silence, t.monitor.conditions.silence, t.channels.ch1.state, t.channels.ch6.state)) =
        some (some 0, true, .fallbackHold, .normal) ∧
    seen (exec .silenceExpiry (at_ (some 0))) (·.monitor.silence) = some (some 0) ∧
    seen (exec .silenceExpiry (at_ none)) (·.monitor.silence) = some none := by decide +kernel

theorem test_step_hold :
    let at_ (n : Nat) := monitored fun m => { m with stepHold := n, conditions := { m.conditions with timeStep := true } }
    (at_ 1).runsWith cfg ∧
    seen (exec .stepHoldExpiry (at_ 2)) (·.monitor.stepHold) = some 1 ∧
    seen (exec .stepHoldExpiry (at_ 1)) (fun t => (t.monitor.stepHold, t.monitor.conditions.timeStep)) =
      some (0, false) ∧
    seen (exec .stepHoldExpiry ((at_ 300).setMonitor { (at_ 300).monitor with stepHoldSet := true }))
      (·.monitor.stepHold) = some 300 ∧
    seen (exec .stepHoldExpiry part) (·.monitor.stepHold) = some 0 := by decide +kernel

theorem test_return_countdown_ends :
    let at_ (n : Nat) := withUnit .ch1 { normalUnit with state := .returnWait n, handed := some .off, output := .off } part
    (at_ 1).runsWith cfg ∧
    seen (exec (.returnCountdownExpiry .ch1) (at_ 2)) (·.channels.ch1.state) = some (.returnWait 1) ∧
    seen (exec (.returnCountdownExpiry .ch1) (at_ 1)) (fun t => (t.channels.ch1.state, t.channels.ch1.output)) =
      some (.normal, .on) ∧
    seen (exec (.returnCountdownExpiry .ch1) (withUnit .ch1 { (at_ 1).channels.ch1 with returnSet := true } part))
      (·.channels.ch1.state) = some (.returnWait 1) ∧
    seen (exec (.returnCountdownExpiry .ch1) part) (·.channels.ch1.state) = some .normal := by decide +kernel

/-- A cycle from 47.5 to 52.5 Hz is 156,039 to 172,463 crystal periods. The last crossing is that of tick 4998. -/
theorem test_mains_crossings :
    let cls (elapsed phase : Nat) := seen (exec (.mainsCrossing phase) (part.setElapsed elapsed)) (·.monitor.mains.cls)
    part.runsWith cfg ∧ part.monitor.mains.lastCrossing < part.elapsed * 81920 ∧
    cls 5000 8623 = some .inside ∧ cls 5000 8624 = some .outside ∧ cls 4999 74119 = some .inside ∧
    cls 4999 74118 = some .outside ∧
    seen (exec (.mainsCrossing 0) (monitored fun m => { m with mains := { m.mains with spans := 1, cls := .outside } }))
      (fun t => (t.monitor.mains.cls, t.monitor.mains.spans)) = some (.outside, 0) := by decide +kernel

theorem test_mains_no_crossing :
    seen (exec .mainsNoCrossing (part.setElapsed 5008)) (fun t => (t.monitor.mains.cls, t.monitor.mains.changedAt)) =
      some (.outside, 5008) ∧
    seen (exec .mainsNoCrossing (part.setElapsed 5007)) (·.monitor.mains.cls) = some .inside := by decide +kernel

/-- MAINS_FREQ is raised at 500 ticks OUTSIDE and cleared at 3000 INSIDE, not a tick sooner (R153). -/
theorem test_mains_freq :
    let at_ (cls : MainsClass) (changedAt : Nat) (x : Bool) := monitored fun m =>
      { m with mains := { m.mains with cls := cls, changedAt := changedAt }, conditions := { m.conditions with mainsFreq := x } }
    let freq (t : State) : Bool := t.monitor.conditions.mainsFreq
    (at_ .outside 4500 false).runsWith cfg ∧
    seen (exec .mainsFreqRaise (at_ .outside 4500 false)) freq = some true ∧
    seen (exec .mainsFreqRaise (at_ .outside 4501 false)) freq = some false ∧
    seen (exec .mainsFreqClear (at_ .inside 2000 true)) freq = some false ∧
    seen (exec .mainsFreqClear (at_ .inside 2001 true)) freq = some true := by decide +kernel

/-! ## Outputs and local inputs -/

/-- The first column of section 9.8: a request at once, deferred in the dwell, cancelled; and an entry into
FALLBACK_HOLD that does not wait, unless the input holds. -/
theorem test_outputs :
    let hold : ChannelConfig := { plain with input := .hold, minDwell := 30 }
    let off : ChannelUnit := { normalUnit with output := .off, dwell := 2000 }
    let frozen : ChannelUnit := { normalUnit with dwell := 1000, input := ⟨.asserted, .asserted, 5⟩ }
    ((Work.idle normalUnit).request hold .off).unit =
      { normalUnit with output := .off, dwell := 3000, dwellSet := true } ∧
    ((Work.idle off).request hold .on).unit = { off with deferred := some .on } ∧
    ((Work.idle { off with deferred := some .on }).request hold .off).unit = off ∧
    ((Work.idle frozen).fallbackEntry hold).unit = { frozen with deferred := some .off } ∧
    ((Work.idle { normalUnit with dwell := 1000 }).fallbackEntry hold).unit.output = .off := by decide +kernel

theorem test_dwell_end :
    let at_ (n : Nat) (d : Option Level) := withUnit .ch2 { normalUnit with dwell := n, deferred := d } part
    (at_ 1 (some .off)).runsWith cfg ∧
    seen (exec (.dwellEnd .ch2) (at_ 2 (some .off))) (·.channels.ch2.dwell) = some 1 ∧
    seen (exec (.dwellEnd .ch2) (at_ 1 (some .off))) (fun t => (t.channels.ch2.output, t.channels.ch2.dwell)) =
      some (.off, 1000) ∧
    seen (exec (.dwellEnd .ch2) (at_ 1 none)) (fun t => (t.channels.ch2.output, t.channels.ch2.dwell)) =
      some (.on, 0) := by decide +kernel

/-- A fallback entry sets the dwell at the tick at which the old dwell's decrease is still to come: the fresh
dwell takes its first decrease at the next tick (R172). -/
theorem test_dwell_set_at_its_tick :
    let s := withUnit .ch1 { normalUnit with dwell := 2 } part
    let entered := s.setCondition cfg .silence true
    (entered.channels.ch1.output, entered.channels.ch1.dwell) = (.off, 1000) ∧
    seen (exec (.dwellEnd .ch1) entered) (·.channels.ch1.dwell) = some 1000 ∧
    seen (exec (.dwellEnd .ch1) entered.elapse) (·.channels.ch1.dwell) = some 999 := by decide +kernel

/-- A channel whose local input stands so. -/
def contacted (c : Channel) (u : ChannelUnit) (i : LocalInput) : State := withUnit c { u with input := i } part

theorem test_samples :
    (contacted .ch2 normalUnit ⟨.released, .asserted, 3⟩).runsWith cfg ∧
    seen (exec (.localInputSample .ch2 .asserted) (contacted .ch2 normalUnit ⟨.released, .asserted, 3⟩))
      (·.channels.ch2.input) = some ⟨.released, .asserted, 4⟩ ∧
    seen (exec (.localInputSample .ch2 .released) (contacted .ch2 normalUnit ⟨.released, .asserted, 4⟩))
      (·.channels.ch2.input) = some ⟨.released, .released, 1⟩ ∧
    seen (exec (.firstQualification .ch2 .asserted) (contacted .ch2 normalUnit ⟨.unknown, .asserted, 4⟩))
      (·.channels.ch2.input) = some ⟨.asserted, .asserted, 5⟩ ∧
    seen (exec (.firstQualification .ch2 .asserted) (contacted .ch2 normalUnit ⟨.unknown, .asserted, 3⟩))
      (·.channels.ch2.input.qualification) = some .unknown := by decide +kernel

/-- Section 9.8 at 1,040.00 and at 1,200.00. -/
theorem test_hold_input :
    let held := contacted .ch2 { normalUnit with deferred := some .off } ⟨.asserted, .released, 4⟩
    held.runsWith cfg ∧
    seen (exec (.qualifiedAssertion .ch2) (contacted .ch2 normalUnit ⟨.released, .asserted, 4⟩))
      (fun t => (t.channels.ch2.input.qualification, t.channels.ch2.output)) = some (.asserted, .on) ∧
    seen (exec (.qualifiedRelease .ch2) held) (fun t => (t.channels.ch2.input.qualification, t.channels.ch2.output)) =
      some (.released, .off) ∧
    seen (exec (.qualifiedRelease .ch2) (withUnit .ch2 { held.channels.ch2 with dwell := 1 } held))
      (fun t => (t.channels.ch2.deferred, t.channels.ch2.output)) = some (some .off, .on) := by decide +kernel

/-- The input of the unused channel 6 is not sampled (R178). -/
theorem test_unread_input :
    let s := contacted .ch6 unusedUnit ⟨.released, .asserted, 4⟩
    (s.runsWith cfg ∧ (cfg.channel .ch6).used = false) ∧
    seen (exec (.localInputSample .ch6 .asserted) s) id = some s ∧
    seen (exec (.qualifiedAssertion .ch6) s) id = some s := by decide +kernel

/-- A press starts a boost, ends one, and is ignored over an order (R140). -/
theorem test_boost_press :
    let pressed (u : ChannelUnit) := seen (exec (.qualifiedAssertion .ch3)
      (contacted .ch3 u ⟨.released, .asserted, 4⟩)) (·.channels.ch3.override)
    (contacted .ch3 normalUnit ⟨.released, .asserted, 4⟩).runsWith cfg ∧
    pressed normalUnit = some ⟨.force .on (.run (.left 3600)), some .boost⟩ ∧
    pressed { normalUnit with override := ⟨.force .on (.run (.left 9)), some .boost⟩ } = some ⟨.none, some .boost⟩ ∧
    pressed (overridden (.force .on (.run (.left 9)))) = some (overridden (.force .on (.run (.left 9)))).override ∧
    pressed { normalUnit with state := .releaseWait } = some ⟨.none, none⟩ := by decide +kernel

/-- A press and a SWITCH expired on arrival, which meet on NONE: the boost stands in both orders (R140, R145;
log entry 31). -/
theorem test_press_meets_an_expired_switch :
    let expired (w : Work) := w.order plain 0 12 3010 6000 (.switch .off 0 0 1)
    let press (w : Work) := w.press plain 60
    let boosted : Override := ⟨.force .on (.run (.left 3600)), some .boost⟩
    expired (Work.idle normalUnit) = ⟨normalUnit, false, 0, 1⟩ ∧
    (press (expired (Work.idle normalUnit))).unit.override = boosted ∧
    (expired (press (Work.idle normalUnit))).unit.override = boosted := by decide +kernel

/-! ## Status reporting -/

/-- What the Status Port holds, but for the record's bytes. -/
def statusSeen (t : State) : Bool × Bool × Nat :=
  (t.status.emission.isSome, t.status.changePending, t.status.periodic)

/-- Section 11.7 at 4,013, at 4,001 and at 4,091; and a record that meets a busy line (R199). -/
theorem test_status_seconds :
    let at_ (e : Option Emission) (pending : Bool) (n : Nat) := part.setStatus ⟨e, pending, n⟩
    (at_ none true 48).running = true ∧
    seen (exec .statusSecondEnd (at_ none true 48)) statusSeen = some (true, false, 60) ∧
    seen (exec .statusSecondEnd (at_ none false 60)) statusSeen = some (false, false, 59) ∧
    seen (exec .statusSecondEnd (at_ none false 1)) statusSeen = some (true, false, 60) ∧
    seen (exec .statusSecondEnd (at_ (some ⟨[], 4999⟩) true 48)) statusSeen = some (true, true, 47) ∧
    seen (exec .statusSecondEnd ((loading 1).setStatus ⟨none, true, 1⟩)) statusSeen = some (false, true, 1) ∧
    seen (exec .emissionEnd (at_ (some ⟨[], 4994⟩) false 60)) statusSeen = some (false, false, 60) ∧
    seen (exec .emissionEnd (at_ (some ⟨[], 4995⟩) false 60)) statusSeen = some (true, false, 60) := by
  decide +kernel

/-- The part's record at noon of day 9000: configured, program 305, second 43,200, channel 1 ON and NORMAL. -/
theorem test_status_record :
    (statusRecord part).length = 56 ∧
    (statusRecord part).take 18 =
      [0xA5, 52, 0x03, 2, 0x01, 0x23, 0x28, 0x00, 0xA8, 0xC0, 0x01, 0x31, 0, 0, 0, 0, 0x01, 0x01] ∧
    byteAt (statusRecord part) 21 = 0 ∧ crc16 ((statusRecord part).drop 1) = 0 ∧
    byteAt (statusRecord { part with loader := { part.loader with load := .unconfigured } }) 16 = 2 ∧
    (character 0xA5) = [false, true, false, true, false, false, true, false, true, true] := by decide +kernel

/-- STX through a record that began a tick ago (bit 96 is the tenth character's bit 5, and a character's ten bits
begin low), at the idle level, and not driven (R196). -/
theorem test_serial_line :
    let s := part.setStatus ⟨some ⟨List.replicate 56 0xA5, 4999⟩, false, 60⟩
    (s.running = true ∧ s.loader.load ≠ .loading ∧ part.status.emission = none) ∧
    (List.range 14).map s.stxLevel = [some true, some false, some true, some true, some false, some true,
      some false, some true, some false, some false, some true, some false, some true, some true] ∧
    (s.setElapsed 5004).stxLevel 79 = some true ∧ (s.setElapsed 5004).stxLevel 80 = some true ∧
    part.stxLevel 0 = some true ∧
    (s.setLoader Loader.restart).stxLevel 4 = some true ∧
    (s.setPower ⟨true, true, false, 0⟩).stxLevel 0 = none := by decide +kernel

theorem test_register_lines :
    (List.range 8).map (fun n => (part.setRegister (n + 1)).registerLines.toNat) = List.range 8 := by decide +kernel

/-! ## Loading's tables -/

/-- Origin 40 stays, 12 is dropped and kept apart, 7 is new, and 8's dropped window is taken up (R21, R22);
and the table of station J (section 10.8). -/
theorem test_origin_table_rebuilt :
    let o : OriginTable := ⟨[⟨12, some window⟩, ⟨40, some ⟨9, []⟩⟩], [⟨8, some ⟨1, []⟩⟩]⟩
    o.rebuild [40, 7, 40, 8] =
      ⟨[⟨40, some ⟨9, []⟩⟩, ⟨7, none⟩, ⟨8, some ⟨1, []⟩⟩], [⟨12, some window⟩]⟩ ∧
    (o.rebuild [40, 12, 40]).entries = [⟨40, some ⟨9, []⟩⟩, ⟨12, some window⟩] ∧
    (o.rebuild [40, 12, 40]).primary = some 40 := by decide +kernel

/-- Station J's limits and retained countdowns (section 10.8): the lost limit of 2 h is raised to 4 h. -/
theorem test_station_j : reconciledLost 200 2 = 4 ∧
    (let t := ({ part.time with hold := 1200, lost := 98200 } : Timekeeper).lower
       { cfg with holdLimit := 200, lostLimit := 4 }
     t.hold = 1200 ∧ t.lost = 14400) ∧
    { plain with used := true }.returnSeconds 32 = 450 := by decide +kernel

/-- The I2C pair after three pulses to free the bus and a read of two bytes; and a bus that stays held. -/
theorem test_read_attempt :
    attemptActions ⟨3, true, true, true, true, [7, 9]⟩ = [.pulse, .pulse, .pulse, .stop, .start,
      .address 0x50 false, .send 0, .send 0, .repeatedStart, .address 0x50 true, .receive 7 true,
      .receive 9 false, .stop] ∧
    attemptActions (answer 0 10 true) = List.replicate 9 .pulse ∧
    attemptActions ⟨0, true, false, true, true, []⟩ = [.start, .address 0x50 false, .send 0, .stop] ∧
    attemptEnd (answer 66 9 true) = .data (List.replicate 66 0) := by decide +kernel

theorem test_lost_limit_is_reconciled : (60 * 23 < 1440 ∧ reconciledLost 1440 23 = 24) ∧
    reconciledLost 1440 24 = 24 ∧ reconciledLost 61 1 = 2 ∧ reconciledLost 60 1 = 1 := by decide +kernel

/-! ## The invariants stand at a part that runs -/

theorem test_part_clock_and_counters : part.clockSound ∧ (∀ n ∈ part.counters.list, n ≤ 65535) ∧
    step part = .next part.tick := by
  exact ⟨by decide +kernel, by decide +kernel, rfl⟩

theorem test_part_index_and_windows : part.indexSound ∧ part.windowsSound := by
  refine ⟨⟨?_, ⟨?_, ?_, ?_⟩, ?_, ?_, ?_⟩, ?_⟩
  · show cfg.inRange
    decide +kernel
  all_goals decide +kernel

theorem test_part_tables : (holding (entry 1 6000) part).originsSound ∧ (holding (entry 1 6000) part).heardSound := by
  refine ⟨by decide +kernel, by decide +kernel, by decide +kernel, by decide +kernel, ?_⟩
  show 1 ≤ cfg.suppression ∧ _
  refine ⟨by decide, fun slot h e he => ?_⟩
  rcases List.mem_or_eq_of_mem_set h with h | rfl
  · rw [List.eq_of_mem_replicate h] at he
    exact absurd he (by simp)
  · obtain rfl : entry 1 6000 = e := by simpa using he
    exact ⟨by decide, ⟨by decide +kernel, by decide +kernel, by decide +kernel, by decide +kernel⟩, by decide⟩

theorem test_part_line : part.lineSound := by
  intro _
  show (_ ∧ _ ∧ _ ∧ _ ∧ _)
  refine ⟨?_, ?_, ?_, ?_, ?_⟩ <;> decide +kernel

theorem test_part_countdowns : part.countdownsSound := by
  refine ⟨?_, ?_⟩
  · show cfg.inRange
    decide +kernel
  · intro c
    cases c <;> exact ⟨trivial, trivial, by decide, by decide⟩

theorem test_part_conditions : part.conditionsSound :=
  ⟨by decide +kernel, fun _ => ⟨rfl, rfl⟩⟩

theorem test_part_channels : part.channelsSound := by
  intro _ c
  cases c <;> decide +kernel

/-- A part that runs UNCONFIGURED, at an advance of its clock, at a carrier and at a clean tick. -/
theorem test_unconfigured_part :
    let s := (part.setLine { Line.restart with cleanFrom := 4000 }).setLoader { part.loader with load := .unconfigured }
    (s.running = true ∧ s.loader.load = .unconfigured ∧ s.tickWasClean (-8) = true) ∧
    seen (exec .clockAdvance s) (·.time.clock.tick) = some 4320001 ∧
    seen (exec .carrierAppears s) (·.line) = some { s.line with carrierAt := some 5000 } ∧
    seen (exec (.cleanTick (-8)) s) (·.line) = some { s.line with noise := -1, cleanFrom := 5000 } := by
  decide +kernel

/-- While LOADING the noise estimate holds its restart state, and a carrier is only kept by its tick. -/
theorem test_loading_line :
    let s := { (loading 1) with elapsed := 1 }
    (s.running = true ∧ s.loader.load = .loading ∧ s.tickWasClean (-8) = true) ∧
    seen (exec (.cleanTick (-8)) s) id = some s ∧
    seen (exec .carrierAppears s) (·.line) = some { s.line with carrierAt := some 1 } := by decide +kernel

/-- The fifth equal sample comes as the command named after what it qualifies (R175; log entry 32). -/
theorem test_fifth_sample :
    let s := contacted .ch2 normalUnit ⟨.released, .asserted, 4⟩
    seen (exec (.localInputSample .ch2 .asserted) s) id = some s ∧
    seen (exec (.qualifiedAssertion .ch2) s) (·.channels.ch2.input) = some ⟨.asserted, .asserted, 5⟩ := by
  decide +kernel

/-- A FORCED that clears: RETURN_WAIT with its countdown, or RELEASE_WAIT by the flag (R156, R159, R160). -/
theorem test_forced_clears :
    let u := { normalUnit with state := .fallbackHold, forced := true, setter := some (12, 1), handed := some .off,
                               output := .off }
    let freed (cc : ChannelConfig) := ((Work.idle u).forceSafe cc 128 .clear 12 2 false).unit
    let cc := { plain with returnBase := 5, returnSpread := 20, noAutoReturn := false }
    freed cc = { u with forced := false, setter := some (12, 2), state := .returnWait 900, returnSet := true } ∧
    freed { cc with noAutoReturn := true } =
      { u with forced := false, setter := some (12, 2), state := .releaseWait } := by decide +kernel

end Sys2Proof.Machine.Test
end

section
/-! PROOF. What a cold restart leaves in the Timekeeper (R65), and the first advance of the clock after it
(R63). -/

namespace Sys2Proof.Machine

/-! ## The commands COLD_RESTART and CLOCK_ADVANCE -/

theorem exec_coldRestart_of_cause {s : State}
    (h : s.power.nresetLow = true ∨ s.power.vddUp = false ∧ s.power.mark = false) :
    exec .coldRestart s = .next s.coldRestarted := by
  have hc : s.power.restartsCold = true := (Power.restartsCold_iff _).2 h
  show execColdRestart s = _
  rw [execColdRestart, if_pos hc]

theorem exec_clockAdvance_of_running {s : State} (h : s.running = true) :
    exec .clockAdvance s = .next s.advanceClock :=
  congrArg Host.Outcome.next (State.whenRunning_eq h _)

/-! ## The cold restart -/

@[simp] theorem State.coldRestarted_running (s : State) : s.coldRestarted.running = true := rfl
@[simp] theorem State.coldRestarted_elapsed (s : State) : s.coldRestarted.elapsed = 0 := rfl
@[simp] theorem State.coldRestarted_time (s : State) : s.coldRestarted.time = .cold := rfl
@[simp] theorem State.coldRestarted_counters (s : State) : s.coldRestarted.counters = .restart := rfl

/-! ## The advance of the clock -/

/-- An advance that stays within the day (R63). -/
theorem Moment.later_of_lt {m : Moment} {n : Nat} (h : m.tick + n < Config.dayTicks) :
    m.later n = ⟨m.day, m.tick + n⟩ := by
  simp [Moment.later, Nat.div_eq_of_lt h, Nat.mod_eq_of_lt h]

theorem Timekeeper.advance_of_lt {t : Timekeeper} {n : Nat} (h : t.clock.tick + n < Config.dayTicks) :
    t.advance n = { t with clock := ⟨t.clock.day, t.clock.tick + n⟩ } := by
  rw [Timekeeper.advance, if_neg (Nat.not_le.2 h), Moment.later_of_lt h]

/-- A tick that ends no elapsed second and does not reach midnight only moves the tick of day, by one,
whatever the slew remaining (R63). -/
theorem Timekeeper.tick_within_second {t : Timekeeper} (h : t.clock.tick + 1 < Config.dayTicks) :
    t.tick false = { t with clock := ⟨t.clock.day, t.clock.tick + 1⟩ } :=
  Timekeeper.advance_of_lt h

/-- What the advance tells the other blocks does not move the Timekeeper, in any load state. -/
@[simp] theorem State.advanceClock_time (s : State) :
    s.advanceClock.time = s.time.tick (endsSecond s.elapsed) := by
  unfold State.advanceClock
  dsimp only
  split
  case h_1 cfg _ => exact State.takeClockEvents_frame cfg _ _ _ .time (by decide)
  case h_2 => rfl

/-- The first tick after a cold restart ends no elapsed second (R62), so the clock goes to tick 1 of
day 0. -/
theorem State.coldRestarted_advanceClock_time (s : State) :
    s.coldRestarted.advanceClock.time = { Timekeeper.cold with clock := ⟨0, 1⟩ } := by
  have hsecond : endsSecond 0 = false := rfl
  rw [State.advanceClock_time, State.coldRestarted_elapsed, State.coldRestarted_time, hsecond]
  exact Timekeeper.tick_within_second (by decide)

/-- Settles O5: either cause of R193 brings the restart, which sets the Timekeeper and its counters whole, so
R65's values are read off `Timekeeper.cold`; the advance that follows is the clock's first tick. -/
theorem coldRestartClearsTheClock : Obligations.ColdRestartClearsTheClock := by
  intro s hcause
  refine ⟨s.coldRestarted, exec_coldRestart_of_cause hcause, ?_⟩
  rw [State.coldRestarted_time, State.coldRestarted_counters]
  refine ⟨rfl, rfl, rfl, rfl, rfl, rfl, rfl, rfl, rfl, rfl, rfl, s.coldRestarted.advanceClock,
    exec_clockAdvance_of_running s.coldRestarted_running, ?_⟩
  rw [State.coldRestarted_advanceClock_time]
  exact ⟨rfl, rfl⟩

end Sys2Proof.Machine
end

section
/-! PROOF. Which window a resolution chooses (R103, R110), and the band that follows from it (R109, R111,
R112). -/

namespace Sys2Proof.Machine

/-! ## The windows that cover the present moment -/

theorem Moment.hasReached_iff {clock m : Moment} : clock.hasReached m = true ↔
    0 < (clock.day - m.day).toInt ∨ clock.day = m.day ∧ m.tick ≤ clock.tick := by
  have hday : (clock.day - m.day).toInt = 0 ↔ clock.day = m.day := by
    rw [← BitVec.toInt_zero (w := 16), BitVec.toInt_inj, BitVec.sub_eq_iff_eq_add, BitVec.zero_add]
  rw [Moment.hasReached, decide_eq_true_iff, dayDiff, hday]

theorem Window.covers_iff {w : Window} {clock : Moment} : w.covers clock = true ↔
    clock.hasReached w.start.moment = true ∧ ¬ clock.hasReached w.stop.moment = true := by
  simp [Window.covers]

/-- Slot `i` holds the window `w`, which is of the mode and covers the moment. -/
def CoversIn (clock : Moment) (mode : WindowMode) (windows : List (Option Window)) (i : Nat) (w : Window) :
    Prop :=
  windows[i]? = some (some w) ∧ w.mode = mode ∧ w.covers clock = true

/-- Of the covering windows of the mode, `w` in slot `i` has the highest rank, and the lowest slot of those
that rank with it (R110). -/
def IsChosen (p : Program) (clock : Moment) (mode : WindowMode) (windows : List (Option Window)) (i : Nat)
    (w : Window) : Prop :=
  CoversIn clock mode windows i w ∧ ∀ j v, CoversIn clock mode windows j v →
    p.rank v.band < p.rank w.band ∨ p.rank v.band = p.rank w.band ∧ i ≤ j

theorem CoversIn.lt_length {clock : Moment} {mode : WindowMode} {windows : List (Option Window)} {i : Nat}
    {w : Window} (h : CoversIn clock mode windows i w) : i < windows.length :=
  (List.getElem?_eq_some_iff.1 h.1).1

theorem coversIn_concat_iff {clock : Moment} {mode : WindowMode} {windows : List (Option Window)}
    {slot : Option Window} {i : Nat} {w : Window} :
    CoversIn clock mode (windows ++ [slot]) i w ↔ CoversIn clock mode windows i w ∨
      i = windows.length ∧ slot = some w ∧ w.mode = mode ∧ w.covers clock = true := by
  unfold CoversIn
  rcases Nat.lt_trichotomy i windows.length with hi | rfl | hi
  · rw [List.getElem?_append_left hi]
    simp [hi.ne]
  · simp
  · have hlast : (windows ++ [slot])[i]? = none := List.getElem?_eq_none (by simpa using hi)
    simp [hlast, List.getElem?_eq_none hi.le, hi.ne']

/-! ## The chosen window -/

section
variable {p : Program} {clock : Moment} {mode : WindowMode} {windows : List (Option Window)} {w : Window}

/-- A covering window in a further slot is chosen if it outranks the window chosen before it. -/
theorem chosenWindow_concat_of_outranked (hw : w.mode = mode ∧ w.covers clock = true)
    (h : ∀ b, chosenWindow p clock mode windows = some b → p.rank b < p.rank w.band) :
    chosenWindow p clock mode (windows ++ [some w]) = some w.band := by
  have hw' : (decide (w.mode = mode) && w.covers clock) = true := by simpa using hw
  unfold chosenWindow at h ⊢
  rw [List.foldl_append, List.foldl_cons, List.foldl_nil]
  dsimp only
  rw [if_pos hw']
  split
  case h_1 => rfl
  case h_2 b hb => exact if_pos (h b hb)

/-- A further slot without a covering window, or with one that does not outrank the window chosen before it,
leaves the choice. -/
theorem chosenWindow_concat_of_not_outranked {slot : Option Window}
    (h : ∀ w, slot = some w → w.mode = mode ∧ w.covers clock = true →
      ∃ b, chosenWindow p clock mode windows = some b ∧ p.rank w.band ≤ p.rank b) :
    chosenWindow p clock mode (windows ++ [slot]) = chosenWindow p clock mode windows := by
  unfold chosenWindow at h ⊢
  rw [List.foldl_append, List.foldl_cons, List.foldl_nil]
  cases slot with
  | none => rfl
  | some w =>
    dsimp only
    by_cases hw : (decide (w.mode = mode) && w.covers clock) = true
    · obtain ⟨b, hb, hle⟩ := h w rfl (by simpa using hw)
      rw [if_pos hw, hb]
      exact if_neg (Nat.not_lt.2 hle)
    · rw [if_neg hw]

/-- The band chosen is that of a covering window. -/
theorem coversIn_of_chosenWindow {b : Nat} (h : chosenWindow p clock mode windows = some b) :
    ∃ i w, CoversIn clock mode windows i w ∧ w.band = b := by
  induction windows using List.reverseRecOn generalizing b with
  | nil => cases h
  | append_singleton windows slot ih =>
    by_cases hlast : ∃ w, slot = some w ∧ (w.mode = mode ∧ w.covers clock = true) ∧
        ∀ b, chosenWindow p clock mode windows = some b → p.rank b < p.rank w.band
    · obtain ⟨w, rfl, hw, hrank⟩ := hlast
      rw [chosenWindow_concat_of_outranked hw hrank] at h
      exact ⟨_, w, coversIn_concat_iff.2 (.inr ⟨rfl, rfl, hw⟩), Option.some.inj h⟩
    · push Not at hlast
      rw [chosenWindow_concat_of_not_outranked hlast] at h
      obtain ⟨i, w, hw, hband⟩ := ih h
      exact ⟨i, w, coversIn_concat_iff.2 (.inl hw), hband⟩

theorem chosenWindow_eq_none (h : ∀ i w, ¬ CoversIn clock mode windows i w) :
    chosenWindow p clock mode windows = none := by
  refine Option.eq_none_iff_forall_ne_some.2 fun b hb => ?_
  obtain ⟨i, w, hw, -⟩ := coversIn_of_chosenWindow hb
  exact h i w hw

/-- The fold over the slots finds the window of R110: a later slot takes the place of an earlier one only by
a higher rank. -/
theorem chosenWindow_of_isChosen {i : Nat} (h : IsChosen p clock mode windows i w) :
    chosenWindow p clock mode windows = some w.band := by
  induction windows using List.reverseRecOn with
  | nil => exact absurd h.1.lt_length (Nat.not_lt_zero i)
  | append_singleton windows slot ih =>
    obtain ⟨hcovers, hbest⟩ := h
    have hearlier : ∀ j v, CoversIn clock mode windows j v →
        p.rank v.band < p.rank w.band ∨ p.rank v.band = p.rank w.band ∧ i ≤ j :=
      fun j v hv => hbest j v (coversIn_concat_iff.2 (.inl hv))
    rcases coversIn_concat_iff.1 hcovers with hin | ⟨rfl, rfl, hw⟩
    · have hchosen := ih ⟨hin, hearlier⟩
      refine (chosenWindow_concat_of_not_outranked fun v hs hv => ⟨_, hchosen, ?_⟩).trans hchosen
      have hrank := hbest _ v (coversIn_concat_iff.2 (.inr ⟨rfl, hs, hv⟩))
      omega
    · refine chosenWindow_concat_of_outranked hw fun b hb => ?_
      obtain ⟨j, v, hv, rfl⟩ := coversIn_of_chosenWindow hb
      have hj := hv.lt_length
      have hrank := hearlier j v hv
      omega

end

/-! ## The resolved band -/

/-- What a resolution takes in a valid time state without a covering window (R111). -/
def Program.unimposedBand (p : Program) (t : Timekeeper) : Nat × BandSource :=
  if p.gridEnable then (p.gridBand t.today t.clock.tick, .grid) else (p.defaultBand, .default)

theorem Program.unimposedBand_eq (p : Program) (t : Timekeeper) : p.unimposedBand t =
    (if p.gridEnable then p.gridBand t.today t.clock.tick else p.defaultBand,
      if p.gridEnable then .grid else .default) := by
  unfold Program.unimposedBand
  split <;> rfl

section
variable {p : Program} {t : Timekeeper} {windows : List (Option Window)}

theorem resolvedBand_of_invalid (h : t.state.valid = false) : resolvedBand p t windows =
    (if p.gridEnable then p.gridBand .workday t.clock.tick else p.defaultBand, .invalidTime) := by
  unfold resolvedBand
  rw [if_neg (by simp [h])]
  split <;> rfl

theorem resolvedBand_of_replace {b : Nat} (h : t.state.valid = true)
    (hr : chosenWindow p t.clock .replace windows = some b) :
    resolvedBand p t windows = (b, .replace) := by
  simp [resolvedBand, h, hr]

theorem resolvedBand_of_overlay {b : Nat} (h : t.state.valid = true)
    (hr : chosenWindow p t.clock .replace windows = none)
    (ho : chosenWindow p t.clock .overlay windows = some b) :
    resolvedBand p t windows =
      if p.rank (p.unimposedBand t).1 ≤ p.rank b then (b, .overlay) else p.unimposedBand t := by
  unfold resolvedBand Program.unimposedBand
  rw [if_pos h, hr, ho]

theorem resolvedBand_of_no_window (h : t.state.valid = true)
    (hr : chosenWindow p t.clock .replace windows = none)
    (ho : chosenWindow p t.clock .overlay windows = none) :
    resolvedBand p t windows = p.unimposedBand t := by
  simp [resolvedBand, Program.unimposedBand, h, hr, ho]

end

/-- Settles O35: the window that the statement chooses is the one the fold over the slots finds
(`chosenWindow_of_isChosen`), and the resolution reads its band off that choice. -/
theorem resolvedBandIsChosen : Obligations.ResolvedBandIsChosen := by
  intro p t windows reached covers chosen grid source
  have hreached : ∀ m : Minute, t.clock.hasReached m.moment = true ↔ reached m :=
    fun m => Moment.hasReached_iff
  have hcovers : ∀ mode i w, CoversIn t.clock mode windows i w ↔ covers mode i w := fun mode i w => by
    rw [CoversIn, Window.covers_iff, hreached, hreached]
  have hchosen : ∀ mode w, chosen mode w → chosenWindow p t.clock mode windows = some w.band := by
    rintro mode w ⟨i, hw, hbest⟩
    exact chosenWindow_of_isChosen ⟨(hcovers mode i w).2 hw, fun j v hv => hbest j v ((hcovers mode j v).1 hv)⟩
  have hnone : ∀ mode, (∀ i w, ¬ covers mode i w) → chosenWindow p t.clock mode windows = none :=
    fun mode h => chosenWindow_eq_none fun i w hw => h i w ((hcovers mode i w).1 hw)
  have hbase : p.unimposedBand t = (grid, source) := p.unimposedBand_eq t
  refine ⟨fun hvalid => ⟨fun w hw => resolvedBand_of_replace hvalid (hchosen _ w hw), fun hr => ⟨?_, ?_⟩⟩,
    resolvedBand_of_invalid⟩
  · intro w hw
    have hoverlay := resolvedBand_of_overlay hvalid (hnone _ hr) (hchosen _ w hw)
    rw [hbase] at hoverlay
    exact ⟨fun hle => hoverlay.trans (if_pos hle), fun hlt => hoverlay.trans (if_neg (Nat.not_le.2 hlt))⟩
  · intro ho
    exact (resolvedBand_of_no_window hvalid (hnone _ hr) (hnone _ ho)).trans hbase

end Sys2Proof.Machine
end

section
/-! PROOF. The requested level of a channel: off when it is unused (R124), its safe level outside NORMAL (R161),
and in NORMAL its override combined with its band (R141, R142). -/

namespace Sys2Proof.Machine

/-! ## The combination of an override with a band action -/

section
variable (action : Level) (critical : Bool)

@[simp] theorem combine_none : combine .none action critical = action := rfl

@[simp] theorem combine_delay (l : Level) (n : Nat) (r : Run) :
    combine (.force l (.delay n r)) action critical = action := by
  cases l <;> rfl

@[simp] theorem combine_forceOff_run (r : Run) : combine (.force .off (.run r)) action critical = .off := rfl

@[simp] theorem combine_forceOn_run (r : Run) :
    combine (.force .on (.run r)) action critical = if critical then action else .on := rfl

@[simp] theorem combine_cycle_off (f : Cycle) : combine (.cycle f) .off critical = .off := rfl

@[simp] theorem combine_cycle_on (f : Cycle) : combine (.cycle f) .on critical = f.portion := rfl

end

/-! ## The requested level by used flag and channel state -/

theorem ChannelUnit.bandCritical_iff {u : ChannelUnit} :
    u.bandCritical = true ↔ ∃ b, u.band = some b ∧ b.cls = .critical := by
  unfold ChannelUnit.bandCritical
  cases u.band <;> simp

section
variable {cc : ChannelConfig} {u : ChannelUnit}

theorem ChannelUnit.requested_of_unused (hused : cc.used = false) : u.requested cc = .off := by
  simp [ChannelUnit.requested, hused]

theorem ChannelUnit.requested_of_not_normal (hused : cc.used = true) (hstate : u.state ≠ .normal) :
    u.requested cc = cc.safe := by
  rw [ChannelUnit.requested, if_pos hused]
  cases h : u.state with
  | normal => exact absurd h hstate
  | fallbackHold | returnWait _ | releaseWait => rfl

theorem ChannelUnit.requested_of_normal (hused : cc.used = true) (hstate : u.state = .normal) :
    u.requested cc = combine u.override.imposed (u.bandAction cc) u.bandCritical := by
  simp only [ChannelUnit.requested, hused, hstate, if_true]

end

/-- Settles O43: in NORMAL each kind of override is one equation of `combine`, read at the band's action and
class. -/
theorem requestedLevelCombines : Obligations.RequestedLevelCombines := by
  intro cc u action critical
  have haction : u.bandAction cc = action := rfl
  have hcritical : u.bandCritical = true ↔ critical := ChannelUnit.bandCritical_iff
  refine ⟨ChannelUnit.requested_of_unused, ChannelUnit.requested_of_not_normal, fun hused hstate => ?_⟩
  rw [ChannelUnit.requested_of_normal hused hstate, haction]
  refine ⟨?none, ?delay, ?forceOff, ?forceOn, ?cycle⟩
  case none => intro h; rw [h, combine_none]
  case delay => intro l n r h; rw [h, combine_delay]
  case forceOff => intro r h; rw [h, combine_forceOff_run]
  case forceOn =>
    intro r h
    rw [h, combine_forceOn_run]
    exact ⟨fun hc => if_pos (hcritical.2 hc), fun hc => if_neg (mt hcritical.1 hc)⟩
  case cycle =>
    intro f h
    rw [h]
    exact ⟨fun hoff => by rw [hoff, combine_cycle_off], fun hon => by rw [hon, combine_cycle_on]⟩

end Sys2Proof.Machine
end

section
/-! PROOF. The lost limit against the hold limit (R188): where it is raised, it is the hold limit's sixtieth part
rounded up. -/

namespace Sys2Proof.Machine

section
variable {hold lost : Nat}

theorem reconciledLost_of_le (h : hold ≤ 60 * lost) : reconciledLost hold lost = lost :=
  if_neg (Nat.not_lt.2 h)

theorem reconciledLost_of_lt (h : 60 * lost < hold) : reconciledLost hold lost = hold ⌈/⌉ 60 := by
  rw [reconciledLost, if_pos h, Nat.ceilDiv_eq_add_pred_div, Nat.add_sub_assoc (by decide)]

/-- The raised limit is the least number of hours that holds the hold limit, as the lower adjoint of the
hours' minutes. -/
theorem reconciledLost_le_iff_of_lt (h : 60 * lost < hold) (n : Nat) :
    reconciledLost hold lost ≤ n ↔ hold ≤ 60 * n := by
  rw [reconciledLost_of_lt h, ceilDiv_le_iff_le_mul (by decide)]

end

@[simp] theorem configurationOf_holdLimit (image : List Byte) :
    (configurationOf image).holdLimit = field16 image 12 10 1440 120 := rfl

@[simp] theorem configurationOf_lostLimit (image : List Byte) : (configurationOf image).lostLimit =
    reconciledLost (field16 image 12 10 1440 120) (field8 image 14 1 168 36) := rfl

/-- Settles O13: the bound and the minimality of a raised limit are the two directions of
`reconciledLost_le_iff_of_lt`; the largest hold limit, 1440 min, is 24 h exactly. -/
theorem lostLimitIsReconciled : Obligations.LostLimitIsReconciled := by
  refine ⟨fun hold lost hlt => ⟨?bound, ?least⟩, fun _ _ => reconciledLost_of_le, rfl, ?largest, fun image =>
    ⟨configurationOf_holdLimit image, configurationOf_lostLimit image⟩⟩
  case bound => exact (reconciledLost_le_iff_of_lt hlt _).1 le_rfl
  case least => exact fun n => (reconciledLost_le_iff_of_lt hlt n).2
  case largest =>
    intro lost hlost
    have hlt : 60 * lost < 1440 := by omega
    rw [reconciledLost_of_lt hlt, Nat.ceilDiv_eq_add_pred_div]

end Sys2Proof.Machine
end

section
/-! PROOF. The state each command leaves, the parts it may change, and the step lemma by which every invariant of
the part is proved (95_what_each_step_holds.md). -/

namespace Sys2Proof.Machine

/-! ## The state a command leaves -/

/-- The state that a command leaves; `exec_eq_next` says that there always is one (log entry 3). -/
def State.after (s : State) (i : Instr) : State :=
  match exec i s with
  | .next t => t
  | .fault _ | .refused _ => s

theorem exec_eq_next (i : Instr) (s : State) : exec i s = .next (s.after i) := by
  cases i <;> rfl

theorem exec_eq_next_iff {i : Instr} {s t : State} : exec i s = .next t ↔ t = s.after i := by
  rw [exec_eq_next, Host.Outcome.next.injEq]
  exact eq_comm

section
variable (s : State) (c : Channel)

@[simp] theorem State.after_coldRestart :
    s.after .coldRestart = if s.power.restartsCold then s.coldRestarted else s := rfl

@[simp] theorem State.after_warmRestart :
    s.after .warmRestart = if s.power.restartsWarm then s.warmRestarted else s := rfl

@[simp] theorem State.after_supplyFailure : s.after .supplyFailure =
    if s.power.vddUp then
      if s.power.nresetLow then s.setPower { s.power with vddUp := false }
      else (s.setPower { s.power with vddUp := false, crystalTicks := 0 }).cutOff
    else s := rfl

@[simp] theorem State.after_nresetAsserted : s.after .nresetAsserted =
    (s.setPower { s.power with nresetLow := true, mark := false }).clearRetained.cutOff := rfl

@[simp] theorem State.after_vholdLoss : s.after .vholdLoss =
    if s.power.vddUp then s.setPower { s.power with mark := false }
    else (s.setPower { s.power with mark := false }).clearRetained := rfl

@[simp] theorem State.after_retainedClockTick : s.after .retainedClockTick =
    if s.bridged then
      (s.setPower { s.power with crystalTicks := s.power.crystalTicks + 1 }).setTime
        (s.time.retainedTick (s.power.crystalTicks + 1))
    else s := rfl

@[simp] theorem State.after_readAttemptEnd (a : StoreAnswer) (noise : Rat) (v : Bool) :
    s.after (.readAttemptEnd a noise v) = s.whenRunning
      (if s.loader.reading && attemptComplete a then s.judgeAttempt a noise v else s) := rfl

/-- The loader's further attempt, where its tick has come (R186). -/
def State.retry (s : State) : State :=
  match s.loader.load, s.loader.retryAt with
  | .loading, some t =>
    if t ≤ s.elapsed then
      s.setLoader { s.loader with attempts := s.loader.attempts + 1, retryAt := none }
    else s
  | _, _ => s

@[simp] theorem State.after_readRetry : s.after .readRetry = s.whenRunning s.retry := rfl

/-- A start mark at the receiver (R2, R5). -/
def State.hearStart (s : State) : State :=
  match s.line.receiver with
  | .listening => (s.setLine { s.line with receiver := .receiving [] 0 s.elapsed }).turnBusy
  | .receiving _ _ _ | .off => s

@[simp] theorem State.after_startMark : s.after .startMark = s.whenConfigured fun _ => s.hearStart := rfl

/-- The end of a reception at the receiver (R2, R3). -/
def State.receive (cfg : Configuration) (bytes : List Byte) (levelSum : Rat) (s : State) : State :=
  match s.line.receiver with
  | .receiving taken sum start =>
    if taken.length + bytes.length = 32 ∧ start + Config.frameTicks ≤ s.elapsed then
      s.endReception.filter cfg (taken ++ bytes) (linkMargin s.line.noise ((sum + levelSum) / 32))
    else s
  | .listening | .off => s

@[simp] theorem State.after_receptionEnd (bytes : List Byte) (levels : Rat) :
    s.after (.receptionEnd bytes levels) = s.whenConfigured fun cfg => s.receive cfg bytes levels := rfl

/-- A truncated frame at the receiver (R4). -/
def State.truncate (s : State) : State :=
  match s.line.receiver with
  | .receiving _ _ start =>
    if start + 2 ≤ s.elapsed then s.endReception.count .rxCheckFail else s
  | .listening | .off => s

@[simp] theorem State.after_truncatedFrame :
    s.after .truncatedFrame = s.whenConfigured fun _ => s.truncate := rfl

/-- A carrier at the Line Interface (R8, R9). -/
def State.hearCarrier (s : State) : State :=
  match s.loader.load with
  | .configured _ => (s.setLine (s.line.hearCarrier s.elapsed)).turnBusy
  | .loading | .unconfigured => s.setLine (s.line.hearCarrier s.elapsed)

@[simp] theorem State.after_carrierAppears : s.after .carrierAppears = s.whenRunning s.hearCarrier := by
  show s.whenRunning _ = _
  unfold State.hearCarrier
  cases s.loader.load <;> rfl

/-- The end of a clean tick (R8, R9). -/
def State.cleanTick (level : Rat) (s : State) : State :=
  if s.tickWasClean level then
    match s.loader.load with
    | .configured _ =>
      if s.line.taken s.elapsed then s.moveNoise level else (s.moveNoise level).turnQuiet
    | .unconfigured => s.moveNoise level
    | .loading => s
  else s

@[simp] theorem State.after_cleanTick (level : Rat) :
    s.after (.cleanTick level) = s.whenRunning (s.cleanTick level) := rfl

@[simp] theorem State.after_entryFallsDue (place : Nat) :
    s.after (.entryFallsDue place) = s.whenConfigured fun _ =>
      if s.placeDue place then
        if s.relay.access = .lineQuiet then s.fallDue.offer else s.fallDue
      else s := rfl

/-- The end of a backoff (R52). -/
def State.endBackoff (s : State) : State :=
  match s.relay.access with
  | .backoff ends =>
    if ends ≤ s.elapsed then
      match chosenEntry s.dueBy s.relay.heard with
      | some _ => s.offer
      | none => s.setAccess .lineQuiet
    else s
  | _ => s

@[simp] theorem State.after_backoffEnd : s.after .backoffEnd = s.whenConfigured fun _ => s.endBackoff := rfl

/-- The end of a transmission at its twentieth tick (R13, R56). -/
def State.endTransmission (cfg : Configuration) (s : State) : State :=
  match s.line.slot with
  | .sending _ start =>
    if start + Config.frameTicks ≤ s.elapsed then
      (s.setLine { s.line with slot := .idle, receiver := .listening,
                               cleanFrom := max s.line.cleanFrom s.elapsed }).completeRelay cfg
    else s
  | .idle => s

@[simp] theorem State.after_transmissionCompletion :
    s.after .transmissionCompletion = s.whenConfigured fun cfg => s.endTransmission cfg := rfl

@[simp] theorem State.after_entryExpiry (place : Nat) :
    s.after (.entryExpiry place) = s.whenConfigured fun cfg =>
      if expired cfg s.elapsed (entryAt s.relay.heard place) then s.writePlace place none else s := rfl

@[simp] theorem State.after_clockAdvance : s.after .clockAdvance = s.whenRunning s.advanceClock := rfl

@[simp] theorem State.after_holdCountdownExpiry :
    s.after .holdCountdownExpiry = s.whenRunning (s.timeCountdown Timekeeper.holdTick) := rfl

@[simp] theorem State.after_lostCountdownExpiry :
    s.after .lostCountdownExpiry = s.whenRunning (s.timeCountdown Timekeeper.lostTick) := rfl

@[simp] theorem State.after_assemblyTimeout :
    s.after .assemblyTimeout = s.whenConfigured fun _ => s.assemblyTick := rfl

@[simp] theorem State.after_delayEnd :
    s.after (.delayEnd c) = s.whenConfigured fun cfg => s.recordTick cfg c := rfl

@[simp] theorem State.after_runEnd :
    s.after (.runEnd c) = s.whenConfigured fun cfg => s.recordTick cfg c := rfl

@[simp] theorem State.after_portionEnd :
    s.after (.portionEnd c) = s.whenConfigured fun cfg => s.recordTick cfg c := rfl

@[simp] theorem State.after_silenceExpiry :
    s.after .silenceExpiry = s.whenConfigured fun cfg => s.silenceTick cfg := rfl

@[simp] theorem State.after_stepHoldExpiry :
    s.after .stepHoldExpiry = s.whenConfigured fun cfg => s.stepHoldTick cfg := rfl

@[simp] theorem State.after_mainsCrossing (phase : Nat) :
    s.after (.mainsCrossing phase) = s.whenConfigured fun _ =>
      if s.monitor.mains.lastCrossing < s.elapsed * Config.crystalPerTick + phase then
        s.setMonitor { s.monitor with mains := s.monitor.mains.crossing s.elapsed phase }
      else s := rfl

@[simp] theorem State.after_mainsNoCrossing :
    s.after .mainsNoCrossing = s.whenConfigured fun _ =>
      if s.monitor.mains.nextSpan ≤ s.elapsed then
        s.setMonitor { s.monitor with mains := s.monitor.mains.noCrossing s.elapsed }
      else s := rfl

@[simp] theorem State.after_mainsFreqRaise :
    s.after .mainsFreqRaise = s.whenConfigured fun cfg =>
      if s.monitor.mains.raises s.elapsed then s.setCondition cfg .mainsFreq true else s := rfl

@[simp] theorem State.after_mainsFreqClear :
    s.after .mainsFreqClear = s.whenConfigured fun cfg =>
      if s.monitor.mains.clears s.elapsed then s.setCondition cfg .mainsFreq false else s := rfl

@[simp] theorem State.after_returnCountdownExpiry :
    s.after (.returnCountdownExpiry c) = s.whenConfigured fun cfg =>
      s.onChannel c fun u => (Work.idle u).returnTick (cfg.channel c) := rfl

@[simp] theorem State.after_dwellEnd :
    s.after (.dwellEnd c) = s.whenConfigured fun cfg =>
      s.onChannel c fun u => (Work.idle u).dwellTick (cfg.channel c) := rfl

@[simp] theorem State.after_qualifiedAssertion :
    s.after (.qualifiedAssertion c) = s.whenConfigured fun cfg =>
      s.onChannel c fun u => (Work.idle u).assertion (cfg.channel c) cfg.boostLength := rfl

@[simp] theorem State.after_qualifiedRelease :
    s.after (.qualifiedRelease c) = s.whenConfigured fun cfg =>
      s.onChannel c fun u => (Work.idle u).qualifiedRelease (cfg.channel c) := rfl

@[simp] theorem State.after_firstQualification (x : Contact) :
    s.after (.firstQualification c x) = s.whenConfigured fun cfg =>
      s.onChannel c fun u => (Work.idle u).firstQualification (cfg.channel c) x := rfl

@[simp] theorem State.after_statusSecondEnd : s.after .statusSecondEnd =
    s.whenRunning (if s.loader.load = .loading then s else s.statusSecond) := rfl

/-- The end of an emission (R199). -/
def State.endEmission (s : State) : State :=
  match s.status.emission with
  | some e => if e.over s.elapsed then s.setStatus { s.status with emission := none } else s
  | none => s

@[simp] theorem State.after_emissionEnd : s.after .emissionEnd = s.whenRunning s.endEmission := rfl

@[simp] theorem State.after_localInputSample (x : Contact) :
    s.after (.localInputSample c x) = s.whenConfigured fun cfg =>
      s.onChannel c fun u => (Work.idle u).sample (cfg.channel c) x := rfl

end

/-! ## The parts a command may change -/

end Sys2Proof.Machine

namespace Sys2Proof

/-- The parts of the state that a command may change. -/
def Instr.touches : Instr → List Machine.Part
  | .coldRestart | .warmRestart => [.power, .elapsed, .line, .origins, .relay, .time, .programs, .resolver,
      .channels, .register, .monitor, .loader, .status, .counters]
  | .supplyFailure => [.power, .line, .status]
  | .nresetAsserted => [.power, .line, .time, .origins, .programs, .resolver, .status]
  | .vholdLoss => [.power, .time, .origins, .programs, .resolver]
  | .retainedClockTick => [.power, .time]
  | .readAttemptEnd _ _ _ => [.meetings, .power, .line, .origins, .relay, .time, .programs, .resolver,
      .channels, .register, .monitor, .loader, .status]
  | .readRetry => [.loader]
  | .receptionEnd _ _ => [.meetings, .line, .origins, .relay, .time, .programs, .resolver, .channels,
      .register, .monitor, .status, .counters]
  | .truncatedFrame => [.line, .counters]
  | .startMark | .carrierAppears | .cleanTick _ | .entryFallsDue _ | .backoffEnd => [.line, .relay]
  | .transmissionCompletion => [.line, .relay, .counters]
  | .entryExpiry _ => [.relay]
  | .clockAdvance | .holdCountdownExpiry | .lostCountdownExpiry =>
      [.meetings, .time, .programs, .resolver, .channels, .register, .monitor, .status]
  | .assemblyTimeout => [.programs, .counters]
  | .silenceExpiry | .stepHoldExpiry | .mainsFreqRaise | .mainsFreqClear => [.monitor, .channels, .status]
  | .mainsCrossing _ | .mainsNoCrossing => [.monitor]
  | .delayEnd _ | .runEnd _ | .portionEnd _ | .returnCountdownExpiry _ | .dwellEnd _
  | .qualifiedAssertion _ | .qualifiedRelease _ | .firstQualification _ _ | .localInputSample _ _ =>
      [.channels, .status]
  | .statusSecondEnd | .emissionEnd => [.status]

theorem Instr.pending_not_mem_touches (i : Instr) : Machine.Part.pending ∉ i.touches := by
  cases i <;> simp [Instr.touches]

end Sys2Proof

namespace Sys2Proof.Machine

section
variable {ps : List Part} {s : State}

theorem State.whenConfigured_frame {f : Configuration → State}
    (h : ∀ cfg, s.runsWith cfg → s.keepsAllBut ps (f cfg)) : s.keepsAllBut ps (s.whenConfigured f) :=
  State.whenConfigured_cases (.refl _ s) h

theorem State.whenRunning_frame {t : State} (h : s.running = true → s.keepsAllBut ps t) :
    s.keepsAllBut ps (s.whenRunning t) :=
  State.whenRunning_cases (.refl _ s) h

end

section
variable (s : State)

theorem State.setPower_frame (x : Power) : s.keepsAllBut [.power] (s.setPower x) :=
  .of_fields fun p => by cases p <;> simp [State.same]

theorem State.setLoader_frame (x : Loader) : s.keepsAllBut [.loader] (s.setLoader x) :=
  .of_fields fun p => by cases p <;> simp [State.same]

theorem State.setStatus_frame (x : StatusPort) : s.keepsAllBut [.status] (s.setStatus x) :=
  .of_fields fun p => by cases p <;> simp [State.same]

theorem State.setPending_frame (x : List Instr) : s.keepsAllBut [.pending] (s.setPending x) :=
  .of_fields fun p => by cases p <;> simp [State.same]

theorem State.met_frame : s.keepsAllBut [.meetings] s.met :=
  .of_fields fun p => by cases p <;> simp [State.same]

theorem State.cutOff_frame : s.keepsAllBut [.line, .status] s.cutOff :=
  .of_fields fun p => by cases p <;> simp [State.same, State.cutOff]

theorem State.clearRetained_frame :
    s.keepsAllBut [.time, .origins, .programs, .resolver] s.clearRetained :=
  .of_fields fun p => by cases p <;> simp [State.same, State.clearRetained]

theorem State.coldRestarted_frame : s.keepsAllBut (Instr.touches .coldRestart) s.coldRestarted :=
  .of_fields fun p => by cases p <;> simp [State.same, Instr.touches, State.coldRestarted]

theorem State.warmRestarted_frame : s.keepsAllBut (Instr.touches .warmRestart) s.warmRestarted :=
  .of_fields fun p => by cases p <;> simp [State.same, Instr.touches, State.warmRestarted]

theorem State.retry_frame : s.keepsAllBut [.loader] s.retry := by
  unfold State.retry
  split
  · split_ifs
    exacts [State.setLoader_frame s _, .refl _ s]
  · exact .refl _ s

theorem State.hearStart_frame : s.keepsAllBut [.line, .relay] s.hearStart := by
  unfold State.hearStart
  split
  · exact ((State.setLine_frame _ s).mono (by decide)).trans (State.turnBusy_frame _)
  all_goals exact .refl _ s

theorem State.receive_frame (cfg : Configuration) (bytes : List Byte) (levels : Rat) :
    s.keepsAllBut (Instr.touches (.receptionEnd bytes levels)) (s.receive cfg bytes levels) := by
  unfold State.receive
  split
  · split_ifs
    · exact (s.endReception_frame.mono (by simp [Instr.touches])).trans
        ((State.filter_frame _ _ _ _).mono (by simp [Instr.touches]))
    · exact .refl _ s
  all_goals exact .refl _ s

theorem State.truncate_frame : s.keepsAllBut [.line, .counters] s.truncate := by
  unfold State.truncate
  split
  · split_ifs
    · exact (s.endReception_frame.mono (by decide)).trans ((State.count_frame _ _).mono (by decide))
    · exact .refl _ s
  all_goals exact .refl _ s

theorem State.hearCarrier_frame : s.keepsAllBut [.line, .relay] s.hearCarrier := by
  unfold State.hearCarrier
  have h : s.keepsAllBut [.line, .relay] (s.setLine (s.line.hearCarrier s.elapsed)) :=
    (State.setLine_frame _ s).mono (by decide)
  split
  · exact h.trans (State.turnBusy_frame _)
  all_goals exact h

theorem State.cleanTick_frame (level : Rat) : s.keepsAllBut [.line, .relay] (s.cleanTick level) := by
  unfold State.cleanTick
  have h : s.keepsAllBut [.line, .relay] (s.moveNoise level) := (s.moveNoise_frame level).mono (by decide)
  split
  · split
    · split
      exacts [h, h.trans (State.turnQuiet_frame _)]
    · exact h
    · exact .refl _ s
  · exact .refl _ s

theorem State.endBackoff_frame : s.keepsAllBut [.line, .relay] s.endBackoff := by
  unfold State.endBackoff
  split
  · split_ifs
    · split
      exacts [State.offer_frame s, (State.setAccess_frame _ s).mono (by decide)]
    · exact .refl _ s
  · exact .refl _ s

theorem State.endTransmission_frame (cfg : Configuration) :
    s.keepsAllBut [.line, .relay, .counters] (s.endTransmission cfg) := by
  unfold State.endTransmission
  split
  · split_ifs
    · exact ((State.setLine_frame _ s).mono (by decide)).trans
        ((State.completeRelay_frame _ _).mono (by decide))
    · exact .refl _ s
  · exact .refl _ s

theorem State.endEmission_frame : s.keepsAllBut [.status] s.endEmission := by
  unfold State.endEmission
  split
  · split_ifs
    exacts [State.setStatus_frame s _, .refl _ s]
  · exact .refl _ s

theorem State.recordTick_frame (cfg : Configuration) (c : Channel) :
    s.keepsAllBut [.channels, .status] (s.recordTick cfg c) :=
  State.onChannel_frame_uncounted c _ (fun u => by simp) s

end

/-! ## The local inputs' commands count nothing -/

section
variable (cc : ChannelConfig) (w : Work) (x : Contact) (minutes : Nat)

/-- What a sample does to a channel, apart from its input, is a press or a deferred request taken, and neither
counts an order. -/
theorem Work.assertion_uncounted :
    (w.assertion cc minutes).applied = w.applied ∧ (w.assertion cc minutes).refused = w.refused := by
  unfold Work.assertion
  dsimp only
  split_ifs <;> simp

theorem Work.qualifiedRelease_uncounted :
    (w.qualifiedRelease cc).applied = w.applied ∧ (w.qualifiedRelease cc).refused = w.refused := by
  unfold Work.qualifiedRelease
  dsimp only
  split_ifs <;> simp

theorem Work.firstQualification_uncounted :
    (w.firstQualification cc x).applied = w.applied ∧ (w.firstQualification cc x).refused = w.refused := by
  unfold Work.firstQualification
  split_ifs <;> simp

theorem Work.sample_uncounted :
    (w.sample cc x).applied = w.applied ∧ (w.sample cc x).refused = w.refused := by
  unfold Work.sample
  split_ifs <;> simp

end

/-- The frame of each command. -/
theorem State.after_frame (s : State) (i : Instr) : s.keepsAllBut i.touches (s.after i) := by
  cases i with
  | coldRestart =>
    rw [State.after_coldRestart]
    split_ifs
    exacts [s.coldRestarted_frame, .refl _ s]
  | warmRestart =>
    rw [State.after_warmRestart]
    split_ifs
    exacts [s.warmRestarted_frame, .refl _ s]
  | supplyFailure =>
    rw [State.after_supplyFailure]
    split_ifs
    · exact (s.setPower_frame _).mono (by decide)
    · exact ((s.setPower_frame _).mono (by decide)).trans ((State.cutOff_frame _).mono (by decide))
    · exact .refl _ s
  | nresetAsserted =>
    exact ((s.setPower_frame _).mono (by decide)).trans
      (((State.clearRetained_frame _).mono (by decide)).trans ((State.cutOff_frame _).mono (by decide)))
  | vholdLoss =>
    rw [State.after_vholdLoss]
    have h : s.keepsAllBut (Instr.touches .vholdLoss) (s.setPower { s.power with mark := false }) :=
      (s.setPower_frame _).mono (by decide)
    split_ifs
    exacts [h, h.trans ((State.clearRetained_frame _).mono (by decide))]
  | retainedClockTick =>
    rw [State.after_retainedClockTick]
    split_ifs
    · exact ((s.setPower_frame _).mono (by decide)).trans ((State.setTime_frame _ _).mono (by decide))
    · exact .refl _ s
  | readAttemptEnd a noise v =>
    refine State.whenRunning_frame fun _ => ?_
    split_ifs
    exacts [State.judgeAttempt_frame a noise v s, .refl _ s]
  | readRetry => exact State.whenRunning_frame fun _ => s.retry_frame
  | startMark => exact State.whenConfigured_frame fun _ _ => s.hearStart_frame
  | receptionEnd bytes levels => exact State.whenConfigured_frame fun cfg _ => s.receive_frame cfg bytes levels
  | truncatedFrame => exact State.whenConfigured_frame fun _ _ => s.truncate_frame
  | carrierAppears =>
    rw [State.after_carrierAppears]
    exact State.whenRunning_frame fun _ => s.hearCarrier_frame
  | cleanTick level => exact State.whenRunning_frame fun _ => s.cleanTick_frame level
  | entryFallsDue place =>
    refine State.whenConfigured_frame fun _ _ => ?_
    split_ifs
    · exact (s.fallDue_frame.mono (by simp [Instr.touches])).trans (State.offer_frame _)
    · exact s.fallDue_frame.mono (by simp [Instr.touches])
    · exact .refl _ s
  | backoffEnd => exact State.whenConfigured_frame fun _ _ => s.endBackoff_frame
  | transmissionCompletion => exact State.whenConfigured_frame fun cfg _ => s.endTransmission_frame cfg
  | entryExpiry place =>
    refine State.whenConfigured_frame fun _ _ => ?_
    split_ifs
    exacts [State.writePlace_frame _ _ s, .refl _ s]
  | clockAdvance => exact State.whenRunning_frame fun _ => s.advanceClock_frame
  | holdCountdownExpiry => exact State.whenRunning_frame fun _ => State.timeCountdown_frame _ s
  | lostCountdownExpiry => exact State.whenRunning_frame fun _ => State.timeCountdown_frame _ s
  | assemblyTimeout => exact State.whenConfigured_frame fun _ _ => s.assemblyTick_frame
  | delayEnd c => exact State.whenConfigured_frame fun cfg _ => s.recordTick_frame cfg c
  | runEnd c => exact State.whenConfigured_frame fun cfg _ => s.recordTick_frame cfg c
  | portionEnd c => exact State.whenConfigured_frame fun cfg _ => s.recordTick_frame cfg c
  | silenceExpiry => exact State.whenConfigured_frame fun cfg _ => State.silenceTick_frame cfg s
  | stepHoldExpiry => exact State.whenConfigured_frame fun cfg _ => State.stepHoldTick_frame cfg s
  | mainsCrossing phase =>
    refine State.whenConfigured_frame fun _ _ => ?_
    split_ifs
    exacts [State.setMonitor_frame _ s, .refl _ s]
  | mainsNoCrossing =>
    refine State.whenConfigured_frame fun _ _ => ?_
    split_ifs
    exacts [State.setMonitor_frame _ s, .refl _ s]
  | mainsFreqRaise =>
    refine State.whenConfigured_frame fun cfg _ => ?_
    split_ifs
    exacts [State.setCondition_frame cfg _ _ s, .refl _ s]
  | mainsFreqClear =>
    refine State.whenConfigured_frame fun cfg _ => ?_
    split_ifs
    exacts [State.setCondition_frame cfg _ _ s, .refl _ s]
  | returnCountdownExpiry c =>
    refine State.whenConfigured_frame fun _ _ => State.onChannel_frame_uncounted c _ (fun u => ?_) s
    simp
  | dwellEnd c =>
    refine State.whenConfigured_frame fun _ _ => State.onChannel_frame_uncounted c _ (fun u => ?_) s
    simp
  | qualifiedAssertion c =>
    exact State.whenConfigured_frame fun _ _ =>
      State.onChannel_frame_uncounted c _ (fun u => Work.assertion_uncounted _ (.idle u) _) s
  | qualifiedRelease c =>
    exact State.whenConfigured_frame fun _ _ =>
      State.onChannel_frame_uncounted c _ (fun u => Work.qualifiedRelease_uncounted _ (.idle u)) s
  | firstQualification c x =>
    exact State.whenConfigured_frame fun _ _ =>
      State.onChannel_frame_uncounted c _ (fun u => Work.firstQualification_uncounted _ (.idle u) x) s
  | statusSecondEnd =>
    refine State.whenRunning_frame fun _ => ?_
    split_ifs
    exacts [.refl _ s, s.statusSecond_frame]
  | emissionEnd => exact State.whenRunning_frame fun _ => s.endEmission_frame
  | localInputSample c x =>
    exact State.whenConfigured_frame fun _ _ =>
      State.onChannel_frame_uncounted c _ (fun u => Work.sample_uncounted _ (.idle u) x) s

/-- A part that a command does not touch is the same after it. -/
theorem State.after_same (s : State) (i : Instr) {p : Part} (h : p ∉ i.touches) : s.same (s.after i) p :=
  s.after_frame i p h

/-! ## What every step keeps -/

/-- A property that neither the queue nor the meetings bear on, that the timebase's count keeps and that every
command keeps, is kept by every step. -/
theorem step_keeps {P : State → Prop}
    (queue : ∀ s t : State, s.keepsAllBut [.pending, .meetings] t → P s → P t)
    (elapse : ∀ s : State, P s → P s.elapse) (command : ∀ i (s : State), P s → P (s.after i))
    {s t : State} (hs : P s) (h : step s = .next t) : P t := by
  have pended : ∀ (s : State) q, P s → P (s.setPending q) := fun s q =>
    queue s _ ((s.setPending_frame q).mono (by decide))
  cases hq : s.pending with
  | nil =>
    have ht : s.tick = t := by simpa [step, hq] using h
    subst ht
    refine State.tick_cases (fun _ _ => ?_) (fun _ _ => ?_) (fun _ _ => pended s _ hs) (fun _ _ => hs)
    · exact queue s _ s.endUnanswered_frame hs
    · exact pended _ _ (queue _ _ (s.elapse.met_frame.mono (by decide)) (elapse s hs))
  | cons i rest =>
    have ht : exec i (s.setPending rest) = .next t := by simpa [step, hq] using h
    rw [exec_eq_next_iff.1 ht]
    exact command i _ (pended s rest hs)

/-- A property of the parts `rs` alone is kept by every step that keeps it: the commands that touch none of
these parts need no proof of their own. -/
theorem step_keeps_of_reads {P : State → Prop} (rs : List Part)
    (reads : ∀ s t : State, (∀ p ∈ rs, s.same t p) → P s → P t)
    (hrs : Part.pending ∉ rs ∧ Part.meetings ∉ rs)
    (elapse : ∀ s : State, P s → P s.elapse)
    (command : ∀ i (s : State), (∃ p ∈ rs, p ∈ i.touches) → P s → P (s.after i))
    {s t : State} (hs : P s) (h : step s = .next t) : P t := by
  refine step_keeps (fun s t hst => reads s t fun p hp => hst p ?_) elapse (fun i s hs => ?_) hs h
  · have hne : p ≠ .pending ∧ p ≠ .meetings := ⟨fun e => hrs.1 (e ▸ hp), fun e => hrs.2 (e ▸ hp)⟩
    simp [hne.1, hne.2]
  · by_cases hi : ∃ p ∈ rs, p ∈ i.touches
    · exact command i s hi hs
    · push Not at hi
      exact reads s _ (fun p hp => s.after_same i (hi p hp)) hs

/-! ## The machine's own statements -/

/-- Settles O1, by the definition of a step. -/
theorem stepTakesTheFrontCommand : Obligations.StepTakesTheFrontCommand := by
  refine ⟨fun c s => rfl, fun c rest s h => ?_⟩
  rw [step, h]

/-- Settles O4: `exec_eq_next` gives the next state, and no command touches the queue. -/
theorem everyCommandAnswersNext : Obligations.EveryCommandAnswersNext := fun i s =>
  ⟨s.after i, exec_eq_next i s, s.after_same i i.pending_not_mem_touches⟩

/-! ## What a reception can do -/

/-- A delivered copy is discarded and counted, is an echo, or is accepted (R25 to R30). -/
theorem State.filter_cases {P : State → Prop} {cfg : Configuration} {copy : List Byte} {margin : Nat}
    {s : State} (discarded : ∀ k, P (s.count k))
    (echoed : ∀ i, checkPasses copy = true → lookup s.relay.heard (originOf copy) (serialOf copy) = some i →
      P (s.echo cfg i copy s.elapsed))
    (accepted : s.accepts cfg copy → P (s.accept cfg copy margin)) : P (s.filter cfg copy margin) := by
  unfold State.filter State.filterSound
  split
  next hpass =>
    split
    · exact discarded _
    next entry hentry =>
      split
      next i hi => exact echoed i hpass hi
      next hnone =>
        split
        · exact discarded _
        next hage =>
          split
          next hnew => exact accepted ⟨hpass, hnone, Nat.not_le.1 hage, entry, hentry, hnew⟩
          · exact discarded _
          · exact discarded _
  · exact discarded _

/-- A reception's end leaves the state alone, or a copy of 32 bytes goes to the filter (R2, R3). -/
theorem State.receive_cases {P : State → Prop} {cfg : Configuration} {bytes : List Byte} {levels : Rat}
    {s : State} (hs : P s)
    (delivered : ∀ taken sum start, s.line.receiver = .receiving taken sum start →
      ∀ copy margin, copy.length = 32 → P (s.endReception.filter cfg copy margin)) :
    P (s.receive cfg bytes levels) := by
  unfold State.receive
  split
  next taken sum start hr =>
    split_ifs with h
    · exact delivered taken sum start hr _ _ (by simpa using h.1)
    · exact hs
  all_goals exact hs

end Sys2Proof.Machine
end

section
/-! PROOF. The counters only grow, and only up to 65535 (R201): every command but a restart adds events to them. -/

namespace Sys2Proof.Machine

/-! ## Counters that grow -/

/-- Counters to which events of some kinds have been added. -/
def Counters.grows (kinds : List Counter) (c d : Counters) : Prop :=
  ∃ events : List (Counter × Nat), (∀ e ∈ events, e.1 ∈ kinds) ∧ d = events.foldl (fun c e => c.add e.1 e.2) c

section
variable {kinds : List Counter}

theorem Counters.grows.refl (c : Counters) : c.grows kinds c := ⟨[], by simp, rfl⟩

theorem Counters.grows.trans {c d e : Counters} (h : c.grows kinds d) (h' : d.grows kinds e) : c.grows kinds e := by
  obtain ⟨xs, hxs, rfl⟩ := h
  obtain ⟨ys, hys, rfl⟩ := h'
  exact ⟨xs ++ ys, fun x hx => (List.mem_append.1 hx).elim (hxs x) (hys x), by rw [List.foldl_append]⟩

theorem Counters.grows_add (c : Counters) {k : Counter} (hk : k ∈ kinds) (n : Nat) : c.grows kinds (c.add k n) :=
  ⟨[(k, n)], by simpa using hk, rfl⟩

/-- What one increase keeps, growing keeps. -/
theorem Counters.grows.keeps {P : Counters → Prop} {c d : Counters} (h : c.grows kinds d)
    (add : ∀ c, ∀ k ∈ kinds, ∀ n, P c → P (c.add k n)) (hc : P c) : P d := by
  obtain ⟨events, hkinds, rfl⟩ := h
  induction events generalizing c with
  | nil => exact hc
  | cons e events ih =>
    obtain ⟨he, hevents⟩ := List.forall_mem_cons.1 hkinds
    exact ih (add c e.1 he e.2 hc) hevents

theorem Counters.list_le_add {c d : Counters} (h : List.Forall₂ (· ≤ ·) c.list d.list) (k : Counter) (n : Nat) :
    List.Forall₂ (· ≤ ·) c.list (d.add k n).list := by
  have hs : ∀ a m, a ≤ m → a ≤ saturate m n := fun _ m ha => ha.trans (le_saturate m n)
  simp only [Counters.list, List.forall₂_cons] at h
  cases k <;> simp [Counters.list, Counters.add, h, hs]

theorem Counters.list_add_le (c : Counters) (k : Counter) (n : Nat) (h : ∀ m ∈ c.list, m ≤ 65535) :
    ∀ m ∈ (c.add k n).list, m ≤ 65535 := by
  have hs : ∀ m, m ≤ 65535 → saturate m n ≤ 65535 := fun m => saturate_le m n
  simp only [Counters.list, List.forall_mem_cons, List.not_mem_nil, false_implies, implies_true,
    and_true] at h
  cases k <;> simp [Counters.list, Counters.add, h, hs]

theorem Counters.grows.list_le {c d : Counters} (h : c.grows kinds d) : List.Forall₂ (· ≤ ·) c.list d.list :=
  h.keeps (P := fun d => List.Forall₂ (· ≤ ·) c.list d.list) (fun _ k _ n hd => Counters.list_le_add hd k n)
    (List.forall₂_refl _)

theorem Counters.grows.list_bounded {c d : Counters} (h : c.grows kinds d) (hc : ∀ m ∈ c.list, m ≤ 65535) :
    ∀ m ∈ d.list, m ≤ 65535 :=
  h.keeps (fun c k _ n => c.list_add_le k n) hc

end

/-- The kinds of events that an accepted telegram's route counts. -/
def routedKinds : List Counter :=
  [.ordersApplied, .ordersRefused, .progComplete, .progDiscarded, .timeAccepted, .timeRejected, .steps]

/-- All sixteen kinds of events. -/
def allKinds : List Counter :=
  routedKinds ++ [.rxOk, .rxCheckFail, .rxForeign, .rxStale, .rxAged, .echoes, .relayed, .suppressed, .relayDropped]

theorem mem_allKinds (k : Counter) : k ∈ allKinds := by cases k <;> decide

theorem Counters.grows.of_routed {c d : Counters} (h : c.grows routedKinds d) : c.grows allKinds d := by
  obtain ⟨events, -, rfl⟩ := h
  exact ⟨events, fun e _ => mem_allKinds e.1, rfl⟩

/-! ## The operations that count -/

/-- Nothing but counting events of some kinds has changed the counters. -/
def State.countsUp (kinds : List Counter) (s t : State) : Prop := s.counters.grows kinds t.counters

section
variable {kinds : List Counter}

theorem State.countsUp.trans {s t u : State} (h : s.countsUp kinds t) (h' : t.countsUp kinds u) : s.countsUp kinds u :=
  Counters.grows.trans h h'

theorem State.countsUp_of_frame {ps : List Part} {s t : State} (h : s.keepsAllBut ps t)
    (hc : Part.counters ∉ ps := by decide) : s.countsUp kinds t := by
  have he : t.counters = s.counters := h .counters hc
  rw [State.countsUp, he]
  exact .refl _

theorem State.inSomeOrder_countsUp {s : State} {acts : List (State → State)}
    (h : ∀ act ∈ acts, ∀ s : State, s.countsUp kinds (act s)) : s.countsUp kinds (s.inSomeOrder acts) :=
  State.inSomeOrder_keeps (P := fun t => s.countsUp kinds t) (fun act ha t ht => ht.trans (h act ha t))
    (State.countsUp_of_frame s.met_frame)

theorem State.countsUp.refl (s : State) : s.countsUp kinds s := Counters.grows.refl _

theorem State.count_countsUp (s : State) (k : Counter) (hk : k ∈ kinds := by decide) : s.countsUp kinds (s.count k) :=
  Counters.grows_add _ hk _

end

section
variable (cfg : Configuration) (copy : List Byte) (s : State)

theorem State.onChannel_countsUp (c : Channel) (f : ChannelUnit → Work) : s.countsUp routedKinds (s.onChannel c f) :=
  (s.counters.grows_add (k := .ordersApplied) (by decide) _).trans
    (Counters.grows_add _ (k := .ordersRefused) (by decide) _)

theorem State.onEachChannel_countsUp (f : Channel → ChannelUnit → Work) :
    s.countsUp routedKinds (s.onEachChannel f) :=
  s.onEachChannel_keeps (P := fun t => s.countsUp routedKinds t) f
    (fun c t ht => ht.trans (t.onChannel_countsUp c (f c))) (.refl s)

theorem State.setWindow_countsUp (origin : Byte) (serial : Word) (slot : Nat) (start stop : Minute)
    (band : Nat) (mode : WindowMode) :
    s.countsUp routedKinds (s.setWindow cfg origin serial slot start stop band mode) := by
  unfold State.setWindow
  split_ifs
  iterate 3 exact s.count_countsUp _
  exact ((State.countsUp_of_frame (State.setResolver_frame _ s)).trans (State.count_countsUp _ _)).trans
    (State.countsUp_of_frame (State.expireAndResolve_frame _ _))

theorem State.clearWindow_countsUp (origin : Byte) (serial : Word) (slot : Nat) :
    s.countsUp routedKinds (s.clearWindow cfg origin serial slot) := by
  have cleared : ∀ ws, s.countsUp routedKinds (((s.writeWindows ws).count .ordersApplied).resolve cfg) := fun ws =>
    ((State.countsUp_of_frame (State.setResolver_frame _ s)).trans (State.count_countsUp _ _)).trans
      (State.countsUp_of_frame (State.resolve_frame _ _))
  unfold State.clearWindow
  dsimp only
  split_ifs
  exacts [s.count_countsUp _, s.count_countsUp _, cleared _, s.count_countsUp _, cleared _, s.count_countsUp _]

theorem State.complete_countsUp (image : List Byte) : s.countsUp routedKinds (s.complete cfg image) := by
  have emptied : s.countsUp routedKinds (s.setPrograms { s.programs with staging := none }) :=
    State.countsUp_of_frame (State.setPrograms_frame _ s)
  unfold State.complete
  dsimp only
  split_ifs
  iterate 3 exact emptied.trans (State.count_countsUp _ _)
  exact ((emptied.trans (State.countsUp_of_frame (State.setPrograms_frame _ _))).trans
    (State.count_countsUp _ _)).trans (State.countsUp_of_frame (State.examineProgram_frame _ _))

theorem State.collect_countsUp (origin : Byte) (payload : List Byte) :
    s.countsUp routedKinds (s.collect cfg origin payload) := by
  unfold State.collect
  dsimp only
  split_ifs
  exacts [State.complete_countsUp cfg s _, State.countsUp_of_frame (State.setPrograms_frame _ s), .refl s]

theorem State.assemblyTick_countsUp : s.countsUp routedKinds s.assemblyTick := by
  unfold State.assemblyTick
  split
  · exact .refl s
  · split_ifs
    · exact (State.countsUp_of_frame (State.setPrograms_frame _ s)).trans (State.count_countsUp _ _)
    · exact State.countsUp_of_frame (State.setPrograms_frame _ s)

theorem State.countDecision_countsUp (d : Decision) : s.countsUp routedKinds (s.countDecision d) := by
  unfold State.countDecision
  split
  exacts [s.count_countsUp _, s.count_countsUp _, (s.count_countsUp _).trans (State.count_countsUp _ _), .refl s]

theorem State.beacon_countsUp (b : Beacon) (age : Nat) : s.countsUp routedKinds (s.beacon cfg b age) := by
  unfold State.beacon
  split_ifs
  · dsimp only
    refine State.countsUp.trans ?_ (State.inSomeOrder_countsUp fun act ha t =>
      State.countsUp_of_frame (beaconReports_frame _ _ _ _ _ act ha t))
    have decided : ∀ t d, s.countsUp routedKinds ((s.setTime t).countDecision d) := fun t d =>
      (State.countsUp_of_frame (State.setTime_frame t s)).trans (State.countDecision_countsUp _ d)
    split_ifs
    exacts [decided _ _, (decided _ _).trans (State.countsUp_of_frame (State.noteChange_frame _))]
  · exact s.count_countsUp _

theorem State.routeOrder_countsUp : s.countsUp routedKinds (s.routeOrder cfg copy) := by
  unfold State.routeOrder
  split
  exacts [s.onEachChannel_countsUp _, s.setWindow_countsUp .., s.clearWindow_countsUp ..,
    s.onEachChannel_countsUp _, s.onEachChannel_countsUp _, s.count_countsUp _]

theorem State.route_countsUp : s.countsUp routedKinds (s.route cfg copy) := by
  unfold State.route
  split_ifs
  exacts [s.beacon_countsUp .., s.routeOrder_countsUp .., .refl s, s.collect_countsUp .., .refl s, .refl s]

theorem State.openEntry_countsUp (margin receptionEnd : Nat) :
    s.countsUp allKinds (s.openEntry cfg copy margin receptionEnd) := by
  unfold State.openEntry
  split
  · exact s.count_countsUp _
  · have written : ∀ i x, s.countsUp allKinds (s.writePlace i x) := fun i x =>
      State.countsUp_of_frame (State.writePlace_frame i x s)
    dsimp only
    split_ifs
    exacts [written _ _, (written _ _).trans (State.countsUp_of_frame (State.setRelay_frame _ _))]

theorem State.accept_countsUp (margin : Nat) : s.countsUp allKinds (s.accept cfg copy margin) := by
  refine State.inSomeOrder_countsUp ?_
  simp only [List.forall_mem_cons, List.not_mem_nil, false_implies, implies_true, and_true]
  exact ⟨fun t => (State.countsUp_of_frame (State.setOrigins_frame _ t)).trans (State.count_countsUp _ _),
    fun t => t.openEntry_countsUp .., fun t => State.countsUp_of_frame (State.restartSilence_frame _ t),
    fun t => Counters.grows.of_routed (t.route_countsUp ..)⟩

theorem State.echo_countsUp (i receptionEnd : Nat) : s.countsUp allKinds (s.echo cfg i copy receptionEnd) := by
  unfold State.echo
  dsimp only
  split
  · exact s.count_countsUp _
  · split_ifs
    · exact ((s.count_countsUp _).trans (State.count_countsUp _ _)).trans
        (State.countsUp_of_frame (State.settlePlace_frame _ _ _ _))
    · exact (s.count_countsUp _).trans (State.countsUp_of_frame (State.writePlace_frame _ _ _))

theorem State.filter_countsUp (margin : Nat) : s.countsUp allKinds (s.filter cfg copy margin) :=
  State.filter_cases (fun k => s.count_countsUp k (mem_allKinds k)) (fun _ _ _ => s.echo_countsUp ..) fun _ => s.accept_countsUp ..

theorem State.completeRelay_countsUp : s.countsUp allKinds (s.completeRelay cfg) := by
  have accessed : ∀ t : State, t.countsUp allKinds (t.setAccess .lineBusy) := fun t =>
    State.countsUp_of_frame (State.setAccess_frame _ t)
  unfold State.completeRelay
  split
  · exact accessed s
  · split
    · exact ((s.count_countsUp _).trans (State.countsUp_of_frame (State.settlePlace_frame _ _ _ _))).trans
        (accessed _)
    · exact accessed s

/-! ## The commands -/

theorem State.receive_countsUp (bytes : List Byte) (levels : Rat) :
    s.countsUp allKinds (s.receive cfg bytes levels) :=
  State.receive_cases (.refl s) fun _ _ _ _ _ _ _ =>
    (State.countsUp_of_frame s.endReception_frame).trans (State.filter_countsUp ..)

theorem State.truncate_countsUp : s.countsUp allKinds s.truncate := by
  unfold State.truncate
  split
  · split_ifs
    exacts [(State.countsUp_of_frame s.endReception_frame).trans (State.count_countsUp _ _), .refl s]
  all_goals exact .refl s

theorem State.endTransmission_countsUp : s.countsUp allKinds (s.endTransmission cfg) := by
  unfold State.endTransmission
  split
  · split_ifs
    exacts [(State.countsUp_of_frame (State.setLine_frame _ s)).trans (State.completeRelay_countsUp _ _), .refl s]
  · exact .refl s

end

theorem State.whenConfigured_countsUp {s : State} {f : Configuration → State} (h : ∀ cfg, s.countsUp allKinds (f cfg)) :
    s.countsUp allKinds (s.whenConfigured f) :=
  State.whenConfigured_cases (.refl s) fun cfg _ => h cfg

/-- No command but a restart takes anything off a counter. -/
theorem State.after_countsUp (s : State) {i : Instr} (hcold : i ≠ .coldRestart) (hwarm : i ≠ .warmRestart) :
    s.countsUp allKinds (s.after i) := by
  by_cases hi : Part.counters ∈ i.touches
  · cases i <;> simp [Instr.touches] at hi hcold hwarm
    case receptionEnd bytes levels => exact State.whenConfigured_countsUp fun cfg => s.receive_countsUp ..
    case truncatedFrame => exact State.whenConfigured_countsUp fun _ => s.truncate_countsUp
    case transmissionCompletion => exact State.whenConfigured_countsUp fun cfg => s.endTransmission_countsUp cfg
    case assemblyTimeout => exact State.whenConfigured_countsUp fun _ => Counters.grows.of_routed s.assemblyTick_countsUp
  · exact State.countsUp_of_frame (s.after_frame i) hi

theorem Counters.restart_bounded : ∀ n ∈ Counters.restart.list, n ≤ 65535 := by decide

theorem State.after_counters_bounded {s : State} (i : Instr) (hs : ∀ n ∈ s.counters.list, n ≤ 65535) :
    ∀ n ∈ (s.after i).counters.list, n ≤ 65535 := by
  by_cases hcold : i = .coldRestart
  · subst hcold
    rw [State.after_coldRestart]
    split_ifs
    exacts [Counters.restart_bounded, hs]
  by_cases hwarm : i = .warmRestart
  · subst hwarm
    rw [State.after_warmRestart]
    split_ifs
    exacts [Counters.restart_bounded, hs]
  exact Counters.grows.list_bounded (s.after_countsUp hcold hwarm) hs

end Sys2Proof.Machine
end

section
/-! PROOF. The Timekeeper: the clock's advance (R63, R64, R80), its two countdowns (R66), the retained clock (R67)
and beacons (R71 to R79). -/

namespace Sys2Proof.Machine

/-! ## Moments and the advance of the clock -/

theorem Moment.later_tick_lt (m : Moment) (n : Nat) : (m.later n).tick < Config.dayTicks :=
  Nat.mod_lt _ (by decide)

/-- An advance that passes the end of the day, by less than a day (R64). -/
theorem Moment.later_of_ge {m : Moment} {n : Nat} (hn : m.tick + n < 2 * 8640000) (h : 8640000 ≤ m.tick + n) :
    m.later n = ⟨m.day + 1, m.tick + n - 8640000⟩ := by
  have hdiv : (m.tick + n) / 8640000 = 1 := by omega
  have hmod : (m.tick + n) % 8640000 = m.tick + n - 8640000 := by omega
  rw [Moment.later, Config.dayTicks, hdiv, hmod]
  rfl

section
variable (t : Timekeeper) (n : Nat) (second : Bool)

@[simp] theorem Timekeeper.advance_clock : (t.advance n).clock = t.clock.later n := by
  unfold Timekeeper.advance; split_ifs <;> rfl

@[simp] theorem Timekeeper.advance_slew : (t.advance n).slew = t.slew := by
  unfold Timekeeper.advance; split_ifs <;> rfl

@[simp] theorem Timekeeper.advance_candidate : (t.advance n).candidate = t.candidate := by
  unfold Timekeeper.advance; split_ifs <;> rfl

@[simp] theorem Timekeeper.advance_state : (t.advance n).state = t.state := by
  unfold Timekeeper.advance; split_ifs <;> rfl

@[simp] theorem Timekeeper.advance_hold : (t.advance n).hold = t.hold := by
  unfold Timekeeper.advance; split_ifs <;> rfl

@[simp] theorem Timekeeper.advance_lost : (t.advance n).lost = t.lost := by
  unfold Timekeeper.advance; split_ifs <;> rfl

/-- The clock and the day classes after an advance of less than a day (R63, R64). -/
theorem Timekeeper.advance_day (ht : t.clock.tick < 8640000) (hn : n < 8640000) :
    (t.clock.tick + n < 8640000 → (t.advance n).clock = ⟨t.clock.day, t.clock.tick + n⟩ ∧
      (t.advance n).today = t.today ∧ (t.advance n).tomorrow = t.tomorrow) ∧
    (8640000 ≤ t.clock.tick + n →
      (t.advance n).clock = ⟨t.clock.day + 1, t.clock.tick + n - 8640000⟩ ∧
      (t.advance n).today = t.tomorrow.getD .workday ∧ (t.advance n).tomorrow = none) := by
  refine ⟨fun h => ?_, fun h => ?_⟩
  · rw [Timekeeper.advance_of_lt h]
    exact ⟨rfl, rfl, rfl⟩
  · refine ⟨(t.advance_clock n).trans (Moment.later_of_ge (by omega) h), ?_⟩
    rw [Timekeeper.advance, if_pos (show Config.dayTicks ≤ t.clock.tick + n from h)]
    exact ⟨rfl, rfl⟩

theorem endsSecond_iff {tick : Nat} : endsSecond tick = true ↔ 0 < tick ∧ tick % 100 = 0 := by
  simp [endsSecond]

theorem Timekeeper.stride_eq : t.stride second =
    if second = true ∧ 0 < t.slew then 2 else if second = true ∧ t.slew < 0 then 0 else 1 := by
  cases second <;> simp [Timekeeper.stride]

theorem Timekeeper.stride_le_two : t.stride second ≤ 2 := by
  rw [Timekeeper.stride_eq]; split_ifs <;> decide

theorem Timekeeper.slewAfter_eq : t.slewAfter second =
    if second = true ∧ 0 < t.slew then t.slew - 1 else if second = true ∧ t.slew < 0 then t.slew + 1
    else t.slew := by
  unfold Timekeeper.slewAfter
  cases second
  · simp
  · simp only [if_true, true_and]
    split_ifs <;> omega

@[simp] theorem Timekeeper.tick_clock : (t.tick second).clock = t.clock.later (t.stride second) :=
  Timekeeper.advance_clock _ _

@[simp] theorem Timekeeper.tick_slew : (t.tick second).slew = t.slewAfter second :=
  Timekeeper.advance_slew _ _

@[simp] theorem Timekeeper.tick_candidate : (t.tick second).candidate = t.candidate :=
  Timekeeper.advance_candidate _ _

@[simp] theorem Timekeeper.tick_state : (t.tick second).state = t.state := Timekeeper.advance_state _ _

@[simp] theorem Timekeeper.tick_hold : (t.tick second).hold = t.hold := Timekeeper.advance_hold _ _

@[simp] theorem Timekeeper.tick_lost : (t.tick second).lost = t.lost := Timekeeper.advance_lost _ _

end

/-- While the part is not CONFIGURED an advance tells no other block. -/
theorem State.advanceClock_of_not_configured {s : State} (h : ∀ cfg, s.loader.load ≠ .configured cfg) :
    s.advanceClock = s.setTime (s.time.tick (endsSecond s.elapsed)) := by
  unfold State.advanceClock
  dsimp only
  split
  next cfg hl => exact absurd hl (h cfg)
  · rfl

/-- Settles O28: the Timekeeper's tick is an advance by its stride, at most 2 ticks, so that it passes at most one
midnight. -/
theorem clockAdvancesAtEachTick : Obligations.ClockAdvancesAtEachTick := by
  intro s hrun hclock second n
  have hsecond : endsSecond s.elapsed = true ↔ second := endsSecond_iff
  have hstride : s.time.stride (endsSecond s.elapsed) = n := by
    simp only [Timekeeper.stride_eq, hsecond, n]
  have hn : n ≤ 2 := hstride ▸ s.time.stride_le_two _
  obtain ⟨hwithin, hover⟩ := Timekeeper.advance_day
    { s.time with slew := s.time.slewAfter (endsSecond s.elapsed) } n hclock (by omega)
  have htime : s.advanceClock.time =
      Timekeeper.advance { s.time with slew := s.time.slewAfter (endsSecond s.elapsed) } n := by
    rw [State.advanceClock_time, Timekeeper.tick, hstride]
  refine ⟨s.advanceClock, exec_clockAdvance_of_running hrun, ?_, ?_, ?_, ?_, ?_, ?_, ?_,
    s.advanceClock_frame, fun h => ?_⟩
  · rw [htime]; exact hwithin
  · rw [htime]; exact hover
  · simp only [State.advanceClock_time, Timekeeper.tick_slew, Timekeeper.slewAfter_eq, hsecond]
  · simp
  · simp
  · simp
  · simp
  · rw [State.advanceClock_of_not_configured h]
    exact State.setTime_frame _ s

/-! ## The countdowns -/

/-- The hold countdown's step in one equation: it stops at 0, and its end turns SYNCED into HOLDOVER (R66). -/
theorem Timekeeper.holdTick_eq (t : Timekeeper) : t.holdTick = { t with
    hold := t.hold - 1, state := if t.hold = 1 ∧ t.state = .synced then .holdover else t.state } := by
  unfold Timekeeper.holdTick
  by_cases h : t.hold = 1 <;> simp [h]

theorem TimeState.valid_iff {x : TimeState} : x.valid = true ↔ x = .synced ∨ x = .holdover := by
  cases x <;> simp [TimeState.valid]

/-- The lost countdown's step in one equation: its end turns a valid time state into LOST (R66). -/
theorem Timekeeper.lostTick_eq (t : Timekeeper) : t.lostTick = { t with
    lost := t.lost - 1, state := if t.lost = 1 ∧ t.state.valid = true then .lost else t.state } := by
  unfold Timekeeper.lostTick
  by_cases h : t.lost = 1 <;> simp [h, TimeState.valid_iff]

/-! ## The retained clock -/

section
variable (t : Timekeeper) (crystal : Nat)

theorem Timekeeper.retainedTick_second (h : crystal % 100 = 0) :
    t.retainedTick crystal = (t.advance 1).holdTick.lostTick := if_pos h

theorem Timekeeper.retainedTick_within (h : crystal % 100 ≠ 0) : t.retainedTick crystal = t.advance 1 :=
  if_neg h

/-- The countdowns leave the clock, the day classes, the slew and the candidate to the advance. -/
theorem Timekeeper.retainedTick_eq : t.retainedTick crystal = { t.advance 1 with
    state := (t.retainedTick crystal).state, hold := (t.retainedTick crystal).hold,
    lost := (t.retainedTick crystal).lost } := by
  unfold Timekeeper.retainedTick
  split_ifs
  · rw [Timekeeper.lostTick_eq, Timekeeper.holdTick_eq]
  · rfl

end

/-- At a second's end both countdowns run, and where both end the time state is LOST. -/
theorem Timekeeper.holdTick_lostTick_state (t : Timekeeper) : t.holdTick.lostTick.state =
    if t.lost = 1 ∧ t.state.valid = true then .lost
    else if t.hold = 1 ∧ t.state = .synced then .holdover else t.state := by
  simp only [Timekeeper.lostTick_eq, Timekeeper.holdTick_eq]
  by_cases h : t.hold = 1 ∧ t.state = .synced
  · simp [h, TimeState.valid]
  · simp [h]

/-- Settles O9: a retained tick is an advance by one tick and, at every hundredth, the step of both countdowns. -/
theorem retainedClockRuns : Obligations.RetainedClockRuns := by
  refine ⟨fun s hbridged hclock => ?_, fun s hbridged => ?_⟩
  · have hafter : s.after .retainedClockTick =
        (s.setPower { s.power with crystalTicks := s.power.crystalTicks + 1 }).setTime
          (s.time.retainedTick (s.power.crystalTicks + 1)) := by
      rw [State.after_retainedClockTick, if_pos hbridged]
    obtain ⟨hwithin, hover⟩ := s.time.advance_day 1 hclock (by decide)
    refine ⟨_, exec_eq_next _ s, ?_⟩
    rw [hafter]
    refine ⟨rfl, ?_, ?_, ?_, ?_, hafter ▸ s.after_frame .retainedClockTick⟩
    · rw [State.setTime_time, Timekeeper.retainedTick_eq]
      split
      next h => exact hwithin h
      next h =>
        obtain ⟨hc, htoday, htomorrow⟩ := hover (Nat.not_lt.1 h)
        have hzero : s.time.clock.tick + 1 - 8640000 = 0 := by omega
        rw [hzero] at hc
        exact ⟨hc, htoday, htomorrow⟩
    · rw [State.setTime_time]
      split
      next h =>
        rw [Timekeeper.retainedTick_second _ _ h]
        refine ⟨?_, ?_, ?_⟩
        · simp [Timekeeper.lostTick_eq, Timekeeper.holdTick_eq]
        · simp [Timekeeper.lostTick_eq, Timekeeper.holdTick_eq]
        · rw [Timekeeper.holdTick_lostTick_state]
          simp
      next h => simp [Timekeeper.retainedTick_within _ _ h]
    · rw [State.setTime_time, Timekeeper.retainedTick_eq]
      exact s.time.advance_slew 1
    · rw [State.setTime_time, Timekeeper.retainedTick_eq]
      exact s.time.advance_candidate 1
  · rw [exec_eq_next, State.after_retainedClockTick, hbridged]
    rfl

/-! ## The decision on a beacon -/

theorem withinThreshold_offsetOf {cfg : Configuration} {a b : Moment} :
    withinThreshold cfg (offsetOf a b) = true ↔ (-1 ≤ dayDiff a.day b.day ∧ dayDiff a.day b.day ≤ 1) ∧
      (dayDiff a.day b.day * 8640000 + a.tick - b.tick).natAbs ≤ cfg.stepThreshold := by
  unfold offsetOf
  dsimp only
  split_ifs with h
  · simp [withinThreshold, h, Config.dayTicks]
  · simp [withinThreshold, h]

section
variable {cfg : Configuration} {now : Nat} {t : Timekeeper} {e : Moment}

theorem Timekeeper.judge_of_unset (h : t.state = .unset) : t.judge cfg now e = .firstSetting := if_pos h

theorem Timekeeper.judge_of_within (h : t.state ≠ .unset)
    (hw : withinThreshold cfg (offsetOf e t.clock) = true) :
    t.judge cfg now e = .slew (dayDiff e.day t.clock.day * 8640000 + e.tick - t.clock.tick) := by
  obtain ⟨hday, hle⟩ := withinThreshold_offsetOf.1 hw
  have hoffset : offsetOf e t.clock = some (dayDiff e.day t.clock.day * 8640000 + e.tick - t.clock.tick) :=
    if_pos hday
  rw [Timekeeper.judge, if_neg h, hoffset]
  exact if_pos hle

theorem Timekeeper.judge_of_beyond (h : t.state ≠ .unset)
    (hw : withinThreshold cfg (offsetOf e t.clock) ≠ true) :
    t.judge cfg now e = t.judgeBeyond cfg now e := by
  rw [Timekeeper.judge, if_neg h]
  split
  next o ho =>
    rw [ho] at hw
    exact if_neg (by simpa [withinThreshold] using hw)
  · rfl

theorem Timekeeper.judgeBeyond_of_none (h : t.candidate = none) :
    t.judgeBeyond cfg now e = .holdCandidate := by
  rw [Timekeeper.judgeBeyond, h]

theorem Timekeeper.judgeBeyond_of_some {c : Candidate} (h : t.candidate = some c) :
    t.judgeBeyond cfg now e =
      if now - c.heldAt < 6000 ∧ withinThreshold cfg (offsetOf e (c.estimate.later (now - c.heldAt))) = true
      then .step else .holdCandidate := by
  rw [Timekeeper.judgeBeyond, h]
  dsimp only
  by_cases hold : Config.candidateTicks ≤ now - c.heldAt
  · rw [if_pos hold, if_neg fun hc => absurd hold (Nat.not_le.2 hc.1)]
  · simp [if_neg hold, show now - c.heldAt < 6000 from Nat.not_le.1 hold]

theorem Timekeeper.obey_setting {d : Decision} (h : d = .firstSetting ∨ d = .step) :
    t.obey cfg now e d = (t.setClock e).adopt cfg := by
  obtain rfl | rfl := h <;> rfl

/-- A decision is a first setting, a slew within the threshold, a step, or a candidate held (R74 to R77). -/
theorem Timekeeper.judge_cases : t.judge cfg now e = .firstSetting ∧ t.state = .unset ∨
    t.state ≠ .unset ∧ ((∃ o, t.judge cfg now e = .slew o ∧ o.natAbs ≤ cfg.stepThreshold) ∨
      t.judge cfg now e = .step ∨ t.judge cfg now e = .holdCandidate) := by
  by_cases hunset : t.state = .unset
  · exact .inl ⟨Timekeeper.judge_of_unset hunset, hunset⟩
  refine .inr ⟨hunset, ?_⟩
  by_cases hw : withinThreshold cfg (offsetOf e t.clock) = true
  · exact .inl ⟨_, Timekeeper.judge_of_within hunset hw, (withinThreshold_offsetOf.1 hw).2⟩
  · rw [Timekeeper.judge_of_beyond hunset hw]
    cases hc : t.candidate with
    | none => exact .inr (.inr (Timekeeper.judgeBeyond_of_none hc))
    | some c =>
      rw [Timekeeper.judgeBeyond_of_some hc]
      split_ifs
      exacts [.inr (.inl rfl), .inr (.inr rfl)]

end

section
variable (b : Beacon) (t : Timekeeper)

@[simp] theorem Timekeeper.takeClasses_clock : (t.takeClasses b).clock = t.clock := by
  unfold Timekeeper.takeClasses; split_ifs <;> rfl

@[simp] theorem Timekeeper.takeClasses_slew : (t.takeClasses b).slew = t.slew := by
  unfold Timekeeper.takeClasses; split_ifs <;> rfl

@[simp] theorem Timekeeper.takeClasses_state : (t.takeClasses b).state = t.state := by
  unfold Timekeeper.takeClasses; split_ifs <;> rfl

end

/-- The day after a day and the day before it differ, and both differ from it (R79). -/
theorem day_add_one_ne_sub_one (d : Word) : d + 1 ≠ d ∧ d - 1 ≠ d ∧ d - 1 ≠ d + 1 := by
  refine ⟨?_, ?_, ?_⟩ <;> bv_omega

/-- Settles O31: the estimate is one advance of the beacon's moment, the decision follows the branches of R74 to
R77, and the classes follow the clock's day. -/
theorem beaconsAreDecided : Obligations.BeaconsAreDecided := by
  refine ⟨fun b age hb hage => ?_, ?_, fun b t => ?_⟩
  · have hsum : b.at_.tick + age + 20 = b.at_.tick + (age + Config.frameTicks) := by
      rw [Config.frameTicks, Nat.add_assoc]
    have hlt : b.at_.tick + (age + Config.frameTicks) < 2 * 8640000 := by
      rw [Config.frameTicks]; omega
    dsimp only
    rw [hsum]
    exact ⟨hlt, Moment.later_of_lt, Moment.later_of_ge hlt, Moment.later_tick_lt _ _, by decide⟩
  · intro cfg now t e distance near done adopted set
    have hnear : ∀ a b, withinThreshold cfg (offsetOf a b) = true ↔ near a b :=
      fun _ _ => withinThreshold_offsetOf
    refine ⟨fun hunset => ?_, fun hset hw => ?_, fun hset hw => ?_⟩
    · simp only [done, Timekeeper.judge_of_unset hunset]
      rfl
    · simp only [done, Timekeeper.judge_of_within hset ((hnear _ _).2 hw)]
      rfl
    · have hdone : done = t.obey cfg now e (t.judgeBeyond cfg now e) := by
        simp only [done, Timekeeper.judge_of_beyond hset (mt (hnear _ _).1 hw)]
      refine ⟨fun hc => ?_, fun c hc => ⟨fun hstep => ?_, fun hstep => ?_⟩⟩
      · rw [hdone, Timekeeper.judgeBeyond_of_none hc]
        rfl
      · rw [hdone, Timekeeper.judgeBeyond_of_some hc, if_pos (hstep.imp_right (hnear _ _).2)]
        rfl
      · rw [hdone, Timekeeper.judgeBeyond_of_some hc, if_neg (mt (And.imp_right (hnear _ _).1) hstep)]
        rfl
  · obtain ⟨hadd, hsub, hboth⟩ := day_add_one_ne_sub_one b.at_.day
    unfold Timekeeper.takeClasses
    refine ⟨fun h => if_pos h, fun h => ?_, fun h => ?_, fun h0 h1 h2 => ?_⟩
    · rw [h, if_neg hadd, if_pos rfl]
    · rw [h, if_neg hsub, if_neg hboth, if_pos rfl]
    · rw [if_neg h0, if_neg h1, if_neg h2]

/-! ## A beacon's reports -/

/-- The reports of a decision, apart from the day classes. -/
def earlierReports (cfg : Configuration) (d : Decision) (before after : TimeState) : List (State → State) :=
  (if d.movesClock then [State.expireAndResolve cfg, State.examineProgram cfg] else []) ++
  (if d = .step then [State.reportStep cfg] else []) ++
  (if after = before then []
   else [State.resolverTimeState cfg before, State.examineProgram cfg, State.reportTimeInvalid cfg])

theorem beaconReports_eq (cfg : Configuration) (b : Beacon) (d : Decision) (before after : TimeState) :
    beaconReports cfg b d before after = earlierReports cfg d before after ++ [State.takeClasses cfg b] :=
  rfl

theorem mem_earlierReports {cfg : Configuration} {d : Decision} {before after : TimeState}
    {act : State → State} : act ∈ earlierReports cfg d before after ↔
      d.movesClock = true ∧ (act = State.expireAndResolve cfg ∨ act = State.examineProgram cfg) ∨
      d = .step ∧ act = State.reportStep cfg ∨
      after ≠ before ∧ (act = State.resolverTimeState cfg before ∨ act = State.examineProgram cfg ∨
        act = State.reportTimeInvalid cfg) := by
  unfold earlierReports
  split_ifs <;> simp_all [or_assoc]

theorem earlierReports_frame {cfg : Configuration} {d : Decision} {before after : TimeState}
    {act : State → State} (ha : act ∈ earlierReports cfg d before after) (s : State) :
    s.keepsAllBut [.meetings, .programs, .resolver, .channels, .register, .monitor, .status] (act s) := by
  obtain ⟨-, rfl | rfl⟩ | ⟨-, rfl⟩ | ⟨-, rfl | rfl | rfl⟩ := mem_earlierReports.1 ha
  · exact (State.expireAndResolve_frame _ s).mono (by decide)
  · exact State.examineProgram_frame _ s
  · exact (State.reportStep_frame _ s).mono (by decide)
  · exact (State.resolverTimeState_frame _ _ s).mono (by decide)
  · exact State.examineProgram_frame _ s
  · exact (State.reportTimeInvalid_frame _ s).mono (by decide)

@[simp] theorem State.takeClasses_time (cfg : Configuration) (b : Beacon) (s : State) :
    (s.takeClasses cfg b).time = s.time.takeClasses b := by
  unfold State.takeClasses
  dsimp only
  split_ifs
  · rfl
  · exact State.resolve_time cfg _

/-- The state in which a decision's reports are made: the decision obeyed, counted, and a change of time state
noted. -/
def State.decided (cfg : Configuration) (estimate : Moment) (d : Decision) (s : State) : State :=
  let s' := (s.setTime (s.time.obey cfg s.elapsed estimate d)).countDecision d
  if s'.time.state = s.time.state then s' else s'.noteChange

section
variable (cfg : Configuration) (estimate : Moment) (d : Decision) (s : State)

@[simp] theorem State.countDecision_time : (s.countDecision d).time = s.time :=
  State.countDecision_frame d s .time (by decide)

@[simp] theorem State.decided_time : (s.decided cfg estimate d).time = s.time.obey cfg s.elapsed estimate d := by
  unfold State.decided
  dsimp only
  split_ifs <;> simp

theorem State.decided_frame : s.keepsAllBut [.time, .status, .counters] (s.decided cfg estimate d) := by
  have counted : ∀ t, s.keepsAllBut [.time, .status, .counters] ((s.setTime t).countDecision d) := fun t =>
    ((State.setTime_frame t s).mono (by decide)).trans ((State.countDecision_frame d _).mono (by decide))
  unfold State.decided
  dsimp only
  split_ifs
  exacts [counted _, (counted _).trans ((State.noteChange_frame _).mono (by decide))]

end

theorem State.beacon_of_invalid {cfg : Configuration} {b : Beacon} {age : Nat} {s : State}
    (h : beaconValid cfg b age = false) : s.beacon cfg b age = s.count .timeRejected := by
  rw [State.beacon, h]
  rfl

theorem State.beacon_of_valid {cfg : Configuration} {b : Beacon} {age : Nat} {s : State}
    (h : beaconValid cfg b age = true) : s.beacon cfg b age =
      (s.decided cfg (b.estimate age) (s.time.judge cfg s.elapsed (b.estimate age))).inSomeOrder
        (beaconReports cfg b (s.time.judge cfg s.elapsed (b.estimate age)) s.time.state
          (s.time.obey cfg s.elapsed (b.estimate age)
            (s.time.judge cfg s.elapsed (b.estimate age))).state) := by
  rw [State.beacon, if_pos h]
  dsimp only
  rw [State.countDecision_time, State.setTime_time]
  unfold State.decided
  dsimp only
  rw [State.countDecision_time, State.setTime_time]

/-- A valid beacon makes of the Timekeeper what the decision and the day classes make of it. -/
theorem State.beacon_time {cfg : Configuration} {b : Beacon} {age : Nat} {s : State}
    (h : beaconValid cfg b age = true) : (s.beacon cfg b age).time =
      (s.time.obey cfg s.elapsed (b.estimate age)
        (s.time.judge cfg s.elapsed (b.estimate age))).takeClasses b := by
  rw [State.beacon_of_valid h, beaconReports_eq]
  have hone := State.inSomeOrder_one (s := s.decided cfg (b.estimate age)
    (s.time.judge cfg s.elapsed (b.estimate age))) State.time (Timekeeper.takeClasses b)
    (earlierReports cfg (s.time.judge cfg s.elapsed (b.estimate age)) s.time.state
      (s.time.obey cfg s.elapsed (b.estimate age) (s.time.judge cfg s.elapsed (b.estimate age))).state) []
    (State.takeClasses cfg b)
    (fun act ha t => earlierReports_frame (by simpa using ha) t .time (by decide))
    (State.takeClasses_time cfg b)
  rw [hone, State.met_time, State.decided_time]

/-! ## The clock stays in a day and the slew within the threshold -/

/-- The clock lies within a day, and the slew remaining within a bound. -/
def Timekeeper.within (bound : Nat) (t : Timekeeper) : Prop :=
  t.clock.tick < Config.dayTicks ∧ t.slew.natAbs ≤ bound

theorem State.clockSound_iff (s : State) : s.clockSound ↔ s.time.within s.loader.slewBound := Iff.rfl

section
variable {bound : Nat} {cfg : Configuration} {t : Timekeeper}

theorem Timekeeper.tick_within (second : Bool) (h : t.within bound) : (t.tick second).within bound := by
  refine ⟨by rw [Timekeeper.tick_clock]; exact Moment.later_tick_lt _ _, ?_⟩
  rw [Timekeeper.tick_slew, Timekeeper.slewAfter_eq]
  have hslew := h.2
  split_ifs <;> omega

theorem Timekeeper.retainedTick_within_bound (crystal : Nat) (h : t.within bound) :
    (t.retainedTick crystal).within bound := by
  rw [Timekeeper.retainedTick_eq]
  exact ⟨by simpa using Moment.later_tick_lt _ _, by simpa using h.2⟩

theorem Timekeeper.judged_within {now : Nat} {m : Moment} (h : t.within cfg.stepThreshold)
    (hm : m.tick < Config.dayTicks) :
    (t.obey cfg now m (t.judge cfg now m)).within cfg.stepThreshold := by
  obtain ⟨hd, -⟩ | ⟨-, ⟨o, hd, ho⟩ | hd | hd⟩ := Timekeeper.judge_cases (cfg := cfg) (now := now) (t := t) (e := m)
  all_goals rw [hd]
  exacts [⟨hm, Nat.zero_le _⟩, ⟨h.1, ho⟩, ⟨hm, Nat.zero_le _⟩, h]

end

section
variable {cfg : Configuration} {s : State}

theorem State.beacon_within {b : Beacon} {age : Nat} (h : s.time.within cfg.stepThreshold) :
    (s.beacon cfg b age).time.within cfg.stepThreshold := by
  cases hvalid : beaconValid cfg b age with
  | false => rwa [State.beacon_of_invalid hvalid]
  | true =>
    rw [State.beacon_time hvalid]
    have hm : (b.estimate age).tick < Config.dayTicks := Moment.later_tick_lt _ _
    have hw := Timekeeper.judged_within (now := s.elapsed) h hm
    exact ⟨by simpa using hw.1, by simpa using hw.2⟩

theorem State.route_within {copy : List Byte} (h : s.time.within cfg.stepThreshold) :
    (s.route cfg copy).time.within cfg.stepThreshold := by
  have hkeep : ∀ {ps} {t : State}, s.keepsAllBut ps t → Part.time ∉ ps → t.time.within cfg.stepThreshold :=
    fun hf hp => (hf .time hp : _ = _) ▸ h
  unfold State.route
  split_ifs
  exacts [State.beacon_within h, hkeep (State.routeOrder_frame _ _ s) (by decide), h,
    hkeep (State.collect_frame _ _ _ s) (by decide), h, h]

theorem State.filter_within {copy : List Byte} {margin : Nat} (h : s.time.within cfg.stepThreshold) :
    (s.filter cfg copy margin).time.within cfg.stepThreshold := by
  have hkeep : ∀ {ps} {s t : State}, s.keepsAllBut ps t → Part.time ∉ ps →
      s.time.within cfg.stepThreshold → t.time.within cfg.stepThreshold :=
    fun hf hp hs => (hf .time hp : _ = _) ▸ hs
  refine State.filter_cases (P := fun t => t.time.within cfg.stepThreshold) (fun _ => h)
    (fun _ _ _ => hkeep (State.echo_frame _ _ _ _ s) (by decide) h) fun _ => ?_
  refine State.inSomeOrder_keeps (P := fun t => t.time.within cfg.stepThreshold) ?_ h
  simp only [List.forall_mem_cons, List.not_mem_nil, false_implies, implies_true, and_true]
  exact ⟨fun t ht => ht, fun t ht => hkeep (State.openEntry_frame _ _ _ _ t) (by decide) ht,
    fun t ht => hkeep (State.restartSilence_frame _ t) (by decide) ht, fun t ht => State.route_within ht⟩

end

/-! ## Every step keeps the clock and the counters in range -/

/-- A countdown of the Timekeeper at a second's end: the Timekeeper takes the step, and who is told of it is not the
Timekeeper. -/
theorem State.timeCountdown_time (f : Timekeeper → Timekeeper) (s : State) :
    (s.timeCountdown f).time = if s.loader.load = .unconfigured then s.time else f s.time := by
  unfold State.timeCountdown
  cases s.loader.load with
  | unconfigured => rfl
  | loading =>
    simp only [reduceCtorEq, if_false]
    split_ifs <;> rfl
  | configured cfg => exact State.reportTimeState_frame _ _ _ .time (by decide)

@[simp] theorem Timekeeper.holdTick_clock (t : Timekeeper) : t.holdTick.clock = t.clock := by
  rw [Timekeeper.holdTick_eq]

@[simp] theorem Timekeeper.holdTick_slew (t : Timekeeper) : t.holdTick.slew = t.slew := by
  rw [Timekeeper.holdTick_eq]

@[simp] theorem Timekeeper.lostTick_clock (t : Timekeeper) : t.lostTick.clock = t.clock := by
  rw [Timekeeper.lostTick_eq]

@[simp] theorem Timekeeper.lostTick_slew (t : Timekeeper) : t.lostTick.slew = t.slew := by
  rw [Timekeeper.lostTick_eq]

/-- A step of the Timekeeper that leaves the clock and the slew alone. -/
theorem State.timeCountdown_within {f : Timekeeper → Timekeeper} {bound : Nat} {s : State}
    (hclock : ∀ t, (f t).clock = t.clock) (hslew : ∀ t, (f t).slew = t.slew) (h : s.time.within bound) :
    (s.timeCountdown f).time.within bound := by
  rw [State.timeCountdown_time]
  split
  · exact h
  · rwa [Timekeeper.within, hclock, hslew]

/-- Finding a good image lowers the countdowns and leaves the clock and the slew alone (R68). -/
theorem State.foundConfigured_time (cfg : Configuration) (noise : Rat) (v : Bool) (s : State) :
    (s.foundConfigured cfg noise v).time = s.time.lower cfg := by
  unfold State.foundConfigured
  dsimp only
  refine (State.inSomeOrder_none State.time _ fun act ha t => ?_).trans rfl
  simp only [List.mem_cons, List.not_mem_nil, or_false] at ha
  obtain rfl | rfl | rfl := ha
  · exact State.examineProgram_frame _ t .time (by decide)
  · exact State.placeChannels_frame _ t .time (by decide)
  · exact State.expireAndResolve_frame _ t .time (by decide)

/-- What the end of an attempt can come to (R186): the loader waits for a further attempt, finds the part
UNCONFIGURED, or finds it configured by a good image. -/
theorem State.judgeAttempt_cases {P : State → Prop} {a : StoreAnswer} {noise : Rat} {v : Bool} {s : State}
    (retried : ∀ image, P (s.setLoader { s.loader with
      bus := attemptActions a, image := image, retryAt := some (s.elapsed + 2) }))
    (unconfigured : ∀ image, P ((s.setLoader { s.loader with
      bus := attemptActions a, image := image }).foundUnconfigured v))
    (configured : ∀ image, attemptEnd a = .data image → P ((s.setLoader { s.loader with
      bus := attemptActions a, image := some image }).foundConfigured (configurationOf image) noise v)) :
    P (s.judgeAttempt a noise v) := by
  have failed : ∀ image, P ((s.setLoader { s.loader with
      bus := attemptActions a, image := image }).failAttempt v) := fun image => by
    unfold State.failAttempt
    split_ifs
    exacts [retried image, unconfigured image]
  unfold State.judgeAttempt
  dsimp only
  split
  next image himage =>
    unfold State.judgeImage
    split_ifs
    exacts [configured image himage, unconfigured _, failed _]
  all_goals exact failed _

@[simp] theorem State.endLoading_loader (l : Load) (v : Bool) (s : State) :
    (s.endLoading l v).loader = { s.loader with load := l, retryAt := none } := rfl

theorem State.foundConfigured_loader (cfg : Configuration) (noise : Rat) (v : Bool) (s : State) :
    (s.foundConfigured cfg noise v).loader = { s.loader with load := .configured cfg, retryAt := none } := by
  unfold State.foundConfigured
  dsimp only
  refine (State.inSomeOrder_none State.loader _ fun act ha t => ?_).trans rfl
  simp only [List.mem_cons, List.not_mem_nil, or_false] at ha
  obtain rfl | rfl | rfl := ha
  · exact State.examineProgram_frame _ t .loader (by decide)
  · exact State.placeChannels_frame _ t .loader (by decide)
  · exact State.expireAndResolve_frame _ t .loader (by decide)

theorem State.foundUnconfigured_loader (v : Bool) (s : State) :
    (s.foundUnconfigured v).loader = { s.loader with load := .unconfigured, retryAt := none } := by
  unfold State.foundUnconfigured
  rw [State.onEachChannel_loader]
  rfl

theorem State.foundUnconfigured_same (v : Bool) (s : State) {p : Part}
    (h : p ∉ [Part.power, .channels, .loader, .status] := by decide) :
    s.same (s.foundUnconfigured v) p := State.foundUnconfigured_frame v s p h

theorem Timekeeper.cold_within (bound : Nat) : Timekeeper.cold.within bound :=
  ⟨by decide, Nat.zero_le _⟩

theorem State.clockSound_of_same {s t : State} (htime : t.time = s.time)
    (hload : t.loader.load = s.loader.load) (h : s.clockSound) : t.clockSound := by
  simp only [State.clockSound, Loader.slewBound] at h ⊢
  rwa [htime, hload]

/-- Every command keeps the clock within a day and the slew remaining within the step threshold. -/
theorem State.after_clockSound {s : State} (i : Instr) (h : s.clockSound) : (s.after i).clockSound := by
  have hframe := s.after_frame i
  have hkeep : Part.time ∉ i.touches → Part.loader ∉ i.touches → (s.after i).clockSound := fun ht hl =>
    State.clockSound_of_same (hframe .time ht) (congrArg Loader.load (hframe .loader hl)) h
  have hw : s.time.within s.loader.slewBound := h
  have of_time : Part.loader ∉ i.touches → (s.after i).time.within s.loader.slewBound →
      (s.after i).clockSound := fun hl ht => by
    rwa [State.clockSound_iff, (hframe .loader hl : (s.after i).loader = s.loader)]
  cases i
  case coldRestart =>
    rw [State.after_coldRestart]
    split_ifs
    exacts [Timekeeper.cold_within 0, h]
  case warmRestart =>
    rw [State.after_warmRestart]
    split_ifs
    exacts [⟨h.1, Nat.zero_le _⟩, h]
  case nresetAsserted => exact of_time (by simp [Instr.touches]) (Timekeeper.cold_within _)
  case vholdLoss =>
    refine of_time (by simp [Instr.touches]) ?_
    rw [State.after_vholdLoss]
    split_ifs
    exacts [hw, Timekeeper.cold_within _]
  case retainedClockTick =>
    refine of_time (by simp [Instr.touches]) ?_
    rw [State.after_retainedClockTick]
    split_ifs
    exacts [Timekeeper.retainedTick_within_bound _ hw, hw]
  case readAttemptEnd a noise v =>
    refine State.whenRunning_cases (P := State.clockSound) h fun _ => ?_
    split_ifs with hread
    · have hloading : s.loader.load = .loading := by
        simp only [Bool.and_eq_true, Loader.reading_iff] at hread
        exact hread.1.1
      have hslew : s.time.slew.natAbs ≤ 0 := by
        have hbound := hw.2
        rwa [Loader.slewBound, hloading] at hbound
      refine State.judgeAttempt_cases (P := State.clockSound) (fun image => ?_) (fun image => ?_)
        fun image _ => ?_
      · exact State.clockSound_of_same (s := s) rfl rfl h
      · rw [State.clockSound_iff, State.foundUnconfigured_loader,
          (State.foundUnconfigured_same v _ (p := .time) : State.time _ = _)]
        exact ⟨hw.1, hslew⟩
      · rw [State.clockSound_iff, State.foundConfigured_loader, State.foundConfigured_time]
        exact ⟨hw.1, hslew.trans (Nat.zero_le _)⟩
    · exact h
  case readRetry =>
    rw [State.after_readRetry]
    refine State.whenRunning_cases (P := State.clockSound) h fun _ => ?_
    unfold State.retry
    split
    · split_ifs
      exacts [h, h]
    · exact h
  case receptionEnd bytes levels =>
    refine of_time (by simp [Instr.touches]) ?_
    refine State.whenConfigured_cases (P := fun t => t.time.within s.loader.slewBound) hw fun cfg hcfg => ?_
    have hbound : s.loader.slewBound = cfg.stepThreshold := by rw [Loader.slewBound, hcfg.2]
    rw [hbound] at hw ⊢
    exact State.receive_cases (P := fun t => t.time.within cfg.stepThreshold) hw
      fun _ _ _ _ _ _ _ => State.filter_within hw
  case clockAdvance =>
    refine of_time (by simp [Instr.touches]) ?_
    refine State.whenRunning_cases (P := fun t => t.time.within s.loader.slewBound) hw fun _ => ?_
    rw [State.advanceClock_time]
    exact Timekeeper.tick_within _ hw
  case holdCountdownExpiry =>
    exact of_time (by simp [Instr.touches]) (State.whenRunning_cases
      (P := fun t => t.time.within s.loader.slewBound) hw fun _ =>
        State.timeCountdown_within Timekeeper.holdTick_clock Timekeeper.holdTick_slew hw)
  case lostCountdownExpiry =>
    exact of_time (by simp [Instr.touches]) (State.whenRunning_cases
      (P := fun t => t.time.within s.loader.slewBound) hw fun _ =>
        State.timeCountdown_within Timekeeper.lostTick_clock Timekeeper.lostTick_slew hw)
  all_goals exact hkeep (by simp [Instr.touches]) (by simp [Instr.touches])

/-- Settles O52: the clock's part is `State.after_clockSound`, and the counters only grow, up to 65535, but at a
restart. -/
theorem clockAndCountersStayInRange : Obligations.ClockAndCountersStayInRange := by
  refine ⟨fun s t hs hstep => ?_, fun i s t hcold hwarm h => ?_⟩
  · refine step_keeps_of_reads (P := fun s => s.clockSound ∧ ∀ n ∈ s.counters.list, n ≤ 65535)
      [.time, .loader, .counters] (fun s t hst h => ?_) (by decide) (fun s h => h)
      (fun i s _ h => ⟨State.after_clockSound i h.1, State.after_counters_bounded i h.2⟩) hs hstep
    have hcounters : t.counters = s.counters := hst .counters (by decide)
    exact ⟨State.clockSound_of_same (hst .time (by decide)) (congrArg Loader.load (hst .loader (by decide))) h.1, hcounters ▸ h.2⟩
  · rw [exec_eq_next_iff.1 h]
    exact Counters.grows.list_le (s.after_countsUp hcold hwarm)

end Sys2Proof.Machine
end

section
/-! PROOF. How bytes, program images and configuration images are read (chapter 12). -/

namespace Sys2Proof.Machine

/-! ## Bytes and their bits as numbers -/

theorem toNat_byte_lt (b : Byte) : b.toNat < 256 := b.isLt

theorem bitsOf_eq (b : Byte) (low width : Nat) : bitsOf b low width = b.toNat / 2 ^ low % 2 ^ width := by
  rw [bitsOf, BitVec.extractLsb'_toNat, Nat.shiftRight_eq_div_pow]

theorem bitsOf_lt (b : Byte) (low width : Nat) : bitsOf b low width < 2 ^ width := BitVec.isLt _

/-- The lower half of a byte. -/
theorem bitsOf_low_half (b : Byte) : bitsOf b 0 4 = b.toNat % 16 := by
  simp [bitsOf_eq]

/-- The upper half of a byte. -/
theorem bitsOf_high_half (b : Byte) : bitsOf b 4 4 = b.toNat / 16 := by
  have hb := toNat_byte_lt b
  rw [bitsOf_eq]
  omega

theorem flagOf_iff {b : Byte} {bit : Nat} : flagOf b bit = true ↔ b.toNat / 2 ^ bit % 2 = 1 := by
  rw [flagOf, BitVec.getLsbD, Nat.testBit_eq_decide_div_mod_eq, decide_eq_true_iff]

theorem levelOf_eq_on_iff {b : Byte} {bit : Nat} : levelOf b bit = .on ↔ b.toNat / 2 ^ bit % 2 = 1 := by
  rw [← flagOf_iff, levelOf]
  cases flagOf b bit <;> simp

theorem wordOf_toNat (hi lo : Byte) : (wordOf hi lo).toNat = 256 * hi.toNat + lo.toNat := by
  rw [wordOf, BitVec.toNat_append, ← Nat.shiftLeft_add_eq_or_of_lt lo.isLt, Nat.shiftLeft_eq]
  omega

theorem wordAt_toNat (bytes : List Byte) (i : Nat) :
    (wordAt bytes i).toNat = 256 * (byteAt bytes i).toNat + (byteAt bytes (i + 1)).toNat :=
  wordOf_toNat _ _

theorem nat16At_eq (bytes : List Byte) (i : Nat) :
    nat16At bytes i = 256 * (byteAt bytes i).toNat + (byteAt bytes (i + 1)).toNat :=
  wordOf_toNat _ _

theorem nat24At_eq (bytes : List Byte) (i : Nat) : nat24At bytes i =
    65536 * (byteAt bytes i).toNat + 256 * (byteAt bytes (i + 1)).toNat + (byteAt bytes (i + 2)).toNat := by
  rw [nat24At, nat16At_eq, Nat.add_assoc i 1 1]
  omega

/-- A value brought into a range, by cases. -/
theorem clamp_eq {low high : Nat} (h : low ≤ high) (n : Nat) :
    clamp low high n = if n < low then low else if high < n then high else n := by
  unfold clamp
  split_ifs <;> omega

theorem clamp_le {low high n : Nat} (h : low ≤ high) : clamp low high n ≤ high := by
  unfold clamp; omega

theorem le_clamp {low high n : Nat} : low ≤ clamp low high n := Nat.le_max_left _ _

/-! ## Pieces of a list of bytes -/

theorem byteAt_eq_getElem {bytes : List Byte} {i : Nat} (h : i < bytes.length) : byteAt bytes i = bytes[i] := by
  simp [byteAt, h]

@[simp] theorem byteAt_drop (bytes : List Byte) (n i : Nat) : byteAt (bytes.drop n) i = byteAt bytes (n + i) := by
  simp [byteAt, List.getD]

theorem byteAt_take {bytes : List Byte} {n i : Nat} (h : i < n) : byteAt (bytes.take n) i = byteAt bytes i := by
  simp [byteAt, List.getD, h]

/-- A piece of a list of bytes, read byte by byte. -/
theorem take_drop_eq_map {bytes : List Byte} {first n : Nat} (h : first + n ≤ bytes.length) :
    (bytes.drop first).take n = (List.range n).map fun k => byteAt bytes (first + k) := by
  refine List.ext_getElem (by simp; omega) fun k hk hk' => ?_
  have hlt : first + k < bytes.length := by simp at hk'; omega
  simp [byteAt_eq_getElem hlt]

/-! ## The program image (section 12.5) -/

theorem bandOf_register_range (image : List Byte) (n : Nat) :
    1 ≤ (bandOf image n).register ∧ (bandOf image n).register ≤ 8 :=
  ⟨le_clamp, clamp_le (by decide)⟩

theorem gridOf_le (image : List Byte) (n : Nat) : gridOf image n ≤ 15 := by
  unfold gridOf
  dsimp only
  split_ifs
  exacts [Nat.le_of_lt_succ (bitsOf_lt _ 4 4), Nat.le_of_lt_succ (bitsOf_lt _ 0 4)]

/-- A program read from an image is clamped (R88). -/
theorem programOf_inRange (image : List Byte) (h : (programOf image).activation.tick < 8640000) :
    (programOf image).inRange := by
  refine ⟨h, Nat.le_of_lt_succ (bitsOf_lt _ 0 4), ⟨by simp [programOf], fun b hb => ?_⟩, by simp [programOf],
    fun n hn => ?_⟩
  · obtain ⟨n, -, rfl⟩ := List.mem_map.1 hb
    exact bandOf_register_range image n
  · obtain ⟨k, -, rfl⟩ := List.mem_map.1 hn
    exact gridOf_le image k

theorem programOf_band (image : List Byte) {n : Nat} (h : n < 16) : (programOf image).band n = bandOf image n := by
  simp [Program.band, programOf, h]

theorem programOf_grid (image : List Byte) {n : Nat} (h : n < 192) :
    (programOf image).grid.getD n 0 = gridOf image n := by
  simp [programOf, h]

theorem bandClassOf_rank {code : Nat} (h : code ≤ 4) : (bandClassOf code).rank = code := by
  interval_cases code <;> rfl

theorem bandClassOf_of_ge {code : Nat} (h : 5 ≤ code) : bandClassOf code = .critical := by
  match code, h with
  | _ + 5, _ => rfl

/-- A program is read from the first 138 bytes of its image. -/
theorem programOf_congr {image other : List Byte} (h : other.take 138 = image.take 138) :
    programOf other = programOf image := by
  have hbyte : ∀ i, i < 138 → byteAt other i = byteAt image i := fun i hi => by
    rw [← byteAt_take hi, h, byteAt_take hi]
  have hword : ∀ i, i + 1 < 138 → wordAt other i = wordAt image i := fun i hi => by
    rw [wordAt, wordAt, hbyte i (by omega), hbyte (i + 1) hi]
  have hactivation : activationOf other = activationOf image := by
    rw [activationOf, activationOf, nat24At, nat24At, nat16At, nat16At, hword 2 (by decide),
      hword 5 (by decide), hbyte 4 (by decide)]
  have hbands : (List.range 16).map (bandOf other) = (List.range 16).map (bandOf image) := by
    refine List.map_congr_left fun n hn => ?_
    have hn := List.mem_range.1 hn
    rw [bandOf, bandOf, hbyte (10 + 2 * n) (by omega), hbyte (11 + 2 * n) (by omega)]
  have hgrid : (List.range 192).map (gridOf other) = (List.range 192).map (gridOf image) := by
    refine List.map_congr_left fun n hn => ?_
    have hn := List.mem_range.1 hn
    rw [gridOf, gridOf, hbyte _ (by omega)]
  unfold programOf
  rw [hword 0 (by decide), hactivation, hbyte 7 (by decide), hbands, hgrid]

theorem DayClass.code_lt (cls : DayClass) : cls.code < 4 := by cases cls <;> decide

/-- The grid entry in force is a half byte of the image (R86). -/
theorem gridBand_programOf (image : List Byte) (cls : DayClass) {tick : Nat} (h : tick < 8640000) :
    (programOf image).gridBand cls tick =
      if tick / 180000 % 2 = 0 then (byteAt image (42 + 24 * cls.code + tick / 180000 / 2)).toNat / 16
      else (byteAt image (42 + 24 * cls.code + tick / 180000 / 2)).toNat % 16 := by
  have hcls := cls.code_lt
  have hslot : tick / Config.slotTicks < 48 := by unfold Config.slotTicks; omega
  rw [Program.gridBand]
  change _ = if tick / Config.slotTicks % 2 = 0 then
    (byteAt image (42 + 24 * cls.code + tick / Config.slotTicks / 2)).toNat / 16
    else (byteAt image (42 + 24 * cls.code + tick / Config.slotTicks / 2)).toNat % 16
  generalize tick / Config.slotTicks = slot at hslot ⊢
  have hdiv : (48 * cls.code + slot) / 48 = cls.code := by omega
  have hmod : (48 * cls.code + slot) % 48 = slot := by omega
  have hparity : (48 * cls.code + slot) % 2 = slot % 2 := by omega
  rw [programOf_grid image (by omega), gridOf, hdiv, hmod, hparity, bitsOf_high_half, bitsOf_low_half]

/-- Settles O34: each field of the image is a division and a remainder of its bytes. -/
theorem programImagesAreClamped : Obligations.ProgramImagesAreClamped := by
  intro image p
  refine ⟨decide_eq_true_iff, programOf_inRange image, rfl, rfl, bitsOf_low_half _, ?_, fun n hn => ?_,
    fun cls tick h => gridBand_programOf image cls h, fun other => programOf_congr⟩
  · have hb := toNat_byte_lt (byteAt image 7)
    have hflag : p.gridEnable = flagOf (byteAt image 7) 7 := rfl
    rw [hflag, flagOf_iff]
    omega
  · have hfirst := toNat_byte_lt (byteAt image (10 + 2 * n))
    have hcode : bitsOf (byteAt image (10 + 2 * n)) 5 3 = (byteAt image (10 + 2 * n)).toNat / 32 := by
      rw [bitsOf_eq]; omega
    have hcls : (p.band n).cls = bandClassOf ((byteAt image (10 + 2 * n)).toNat / 32) := by
      rw [programOf_band image hn, ← hcode]; rfl
    have hregister : (p.band n).register = clamp 1 8 ((byteAt image (10 + 2 * n)).toNat % 16) := by
      rw [programOf_band image hn, ← bitsOf_low_half]; rfl
    rw [hcls, hregister, clamp_eq (by decide)]
    refine ⟨bandClassOf_rank, bandClassOf_of_ge, fun h => ?_, fun h1 h8 => ?_, fun h => ?_, fun c => ?_⟩
    · rw [h]; rfl
    · rw [if_neg (by omega), if_neg (by omega)]
    · rw [if_neg (by omega), if_pos (by omega)]
    · rw [programOf_band image hn, ← levelOf_eq_on_iff, bandOf, Six.get_of]

/-! ## The configuration image (section 12.6) -/

theorem field8_range {image : List Byte} {i low high default_ : Nat} (h : low ≤ high)
    (hd : low ≤ default_ ∧ default_ ≤ high) :
    low ≤ field8 image i low high default_ ∧ field8 image i low high default_ ≤ high := by
  unfold field8
  split_ifs
  exacts [hd, ⟨le_clamp, clamp_le h⟩]

theorem field16_range {image : List Byte} {i low high default_ : Nat} (h : low ≤ high)
    (hd : low ≤ default_ ∧ default_ ≤ high) :
    low ≤ field16 image i low high default_ ∧ field16 image i low high default_ ≤ high := by
  unfold field16
  split_ifs
  exacts [hd, ⟨le_clamp, clamp_le h⟩]

theorem reconciledLost_range {hold lost : Nat} (hh : hold ≤ 1440) (hl : 1 ≤ lost ∧ lost ≤ 168) :
    (1 ≤ reconciledLost hold lost ∧ reconciledLost hold lost ≤ 168) ∧ hold ≤ 60 * reconciledLost hold lost := by
  unfold reconciledLost
  split_ifs <;> omega

theorem countedPlaces_eq {image : List Byte} {countAt first most : Nat} (hm : 1 ≤ most)
    (h : first + most ≤ image.length) : countedPlaces image countAt first most =
      (List.range (clamp 1 most (byteAt image countAt).toNat)).map fun k => byteAt image (first + k) := by
  have hle : clamp 1 most (byteAt image countAt).toNat ≤ most := clamp_le hm
  exact take_drop_eq_map (by omega)

theorem countedPlaces_length {image : List Byte} {countAt first most : Nat} (hm : 1 ≤ most)
    (h : first + most ≤ image.length) : 1 ≤ (countedPlaces image countAt first most).length ∧
      (countedPlaces image countAt first most).length ≤ most := by
  rw [countedPlaces_eq hm h, List.length_map, List.length_range]
  exact ⟨le_clamp, clamp_le hm⟩

@[simp] theorem configurationOf_channel (image : List Byte) (c : Channel) :
    (configurationOf image).channel c = channelConfigOf image c := by
  simp [Configuration.channel, configurationOf]

theorem channelConfigOf_inRange (image : List Byte) (c : Channel) : (channelConfigOf image c).inRange :=
  ⟨Nat.le_of_lt_succ (BitVec.isLt _), Nat.le_of_lt_succ (BitVec.isLt _), le_clamp, clamp_le (by decide)⟩

/-- The configuration values of a whole image lie within their ranges (R187 to R190). -/
theorem configurationOf_inRange {image : List Byte} (h : image.length = 66) : (configurationOf image).inRange := by
  have hhold := field16_range (image := image) (i := 12) (default_ := 120) (show 10 ≤ 1440 by decide) (by decide)
  have hlost := reconciledLost_range hhold.2
    (field8_range (image := image) (i := 14) (default_ := 36) (show 1 ≤ 168 by decide) (by decide))
  have horigins := countedPlaces_length (image := image) (countAt := 20) (first := 21) (most := 4)
    (by decide) (by omega)
  have hgroups := countedPlaces_length (image := image) (countAt := 25) (first := 26) (most := 8)
    (by decide) (by omega)
  refine ⟨field8_range (by decide) (by decide), field8_range (by decide) (by decide),
    field16_range (by decide) (by decide), field16_range (by decide) (by decide),
    field16_range (by decide) (by decide), field16_range (by decide) (by decide), hhold, hlost.1, hlost.2,
    (field16_range (by decide) (by decide)).2, Nat.le_of_lt_succ (BitVec.isLt _),
    ⟨le_clamp, clamp_le (by decide)⟩, ⟨le_clamp, clamp_le (by decide)⟩, horigins, ?_, fun g hg => ?_,
    fun c _ => ?_⟩
  · simpa [configurationOf] using hgroups
  · obtain ⟨b, -, rfl⟩ := List.mem_map.1 hg
    split_ifs with hb
    exacts [by decide, hb]
  · rw [configurationOf_channel]
    exact channelConfigOf_inRange image c

theorem inputFunctionOf_eq_hold_iff {code : Nat} : inputFunctionOf code = .hold ↔ code = 1 := by
  unfold inputFunctionOf
  split <;> simp_all

theorem inputFunctionOf_eq_boost_iff {code : Nat} : inputFunctionOf code = .boost ↔ code = 2 := by
  unfold inputFunctionOf
  split <;> simp_all

/-- Settles O12: a field's clamp is its case distinction (`clamp_eq`), a list is its places read one by one
(`countedPlaces_eq`), and a flag is a bit of its byte (`flagOf_iff`). -/
theorem configurationValuesAreClamped : Obligations.ConfigurationValuesAreClamped := by
  intro image hlen cfg b n within one two
  have hwithin : ∀ {low high : Nat}, low ≤ high → ∀ x, clamp low high x = within low high x :=
    fun h x => clamp_eq h x
  have hone : ∀ {i low high default_ : Nat}, low ≤ high →
      field8 image i low high default_ = one i low high default_ := fun h => by
    simp only [field8, hwithin h, one, b]
  have htwo : ∀ {i low high default_ : Nat}, low ≤ high →
      field16 image i low high default_ = two i low high default_ := fun h => by
    simp only [field16, hwithin h, two, n, b, nat16At_eq]
  refine ⟨?_, rfl, configurationOf_inRange hlen, ?_, hone (by decide), hone (by decide), htwo (by decide),
    htwo (by decide), htwo (by decide), htwo (by decide), htwo (by decide), ?_, htwo (by decide), rfl,
    hwithin (by decide) _, hwithin (by decide) _, ?_, ?_, by decide, fun c => ?_⟩
  · rw [imagePasses, decide_eq_true_iff, ← BitVec.toNat_inj, wordAt_toNat]
  · exact flagOf_iff.trans (by rw [Nat.pow_zero, Nat.div_one])
  · rw [configurationOf_lostLimit, hone (by decide)]
    rfl
  · rw [← hwithin (by decide)]
    exact countedPlaces_eq (by decide) (by omega)
  · have hplaces := countedPlaces_eq (image := image) (countAt := 25) (first := 26) (most := 8)
      (by decide) (by omega)
    rw [← hwithin (by decide)]
    show (countedPlaces image 25 26 8).map _ = _
    rw [hplaces, List.map_map]
    refine List.map_congr_left fun k _ => ?_
    have hzero : byteAt image (26 + k) = 0 ↔ b (26 + k) = 0 := by
      rw [← BitVec.toNat_inj]; rfl
    simp only [Function.comp, hzero]
  · have hsecond := toNat_byte_lt (byteAt image (34 + 5 * channelPlace c))
    have hinput : bitsOf (byteAt image (34 + 5 * channelPlace c)) 4 2 =
        b (34 + 5 * channelPlace c) / 16 % 4 := bitsOf_eq _ 4 2
    rw [configurationOf_channel]
    refine ⟨flagOf_iff.trans (by rw [Nat.pow_zero, Nat.div_one]), levelOf_eq_on_iff, flagOf_iff,
      hinput ▸ inputFunctionOf_eq_hold_iff, hinput ▸ inputFunctionOf_eq_boost_iff, ?_, rfl, rfl,
      hwithin (by decide) _⟩
    simp only [List.mem_cons, List.not_mem_nil, or_false, Prod.mk.injEq]
    rintro k j (⟨rfl, rfl⟩ | ⟨rfl, rfl⟩ | ⟨rfl, rfl⟩ | ⟨rfl, rfl⟩ | ⟨rfl, rfl⟩) <;> exact flagOf_iff

end Sys2Proof.Machine
end

section
/-! PROOF. The events of a CONFIGURED part at the programs, the resolver and the channels, named once: a property
of these parts that each of the events keeps is kept by every operation and by every command of the part. -/

namespace Sys2Proof.Machine

/-! ## The events -/

/-- An order's parameters as clamped (R127, R132). -/
def ChannelOrder.inRange : ChannelOrder → Prop
  | .switch _ delay spread duration => delay ≤ 1080 ∧ spread ≤ 255 ∧ duration ≤ 1080
  | .cycle off on duration _ _ => (10 ≤ off ∧ off ≤ 3600) ∧ (10 ≤ on ∧ on ≤ 3600) ∧ duration ≤ 1080
  | .adjust _ | .cancel _ => True

/-- The events at one channel of a part with these values. -/
inductive ChannelEvent (cfg : Configuration) (c : Channel) : (ChannelUnit → Work) → Prop
  | idle : ChannelEvent cfg c Work.idle
  | order (origin : Byte) (serial : Word) (age : Nat) (o : ChannelOrder) (ho : o.inRange) :
      ChannelEvent cfg c fun u => (Work.idle u).order (cfg.channel c) cfg.stagger origin serial age o
  | forceSafe (active : Conditions) (origin : Byte) (serial : Word) (on : Bool) :
      ChannelEvent cfg c fun u => (Work.idle u).forceSafe (cfg.channel c) cfg.stagger active origin serial on
  | release : ChannelEvent cfg c fun u => (Work.idle u).release (cfg.channel c)
  | stationCondition (active : Conditions) (k : Condition) :
      ChannelEvent cfg c fun u => (Work.idle u).stationCondition (cfg.channel c) cfg.stagger active k
  | takeBand (b : Option HandedBand) : ChannelEvent cfg c fun u => (Work.idle u).takeBand (cfg.channel c) b
  | recordTick : ChannelEvent cfg c fun u => (Work.idle u).recordTick (cfg.channel c)
  | dwellTick : ChannelEvent cfg c fun u => (Work.idle u).dwellTick (cfg.channel c)
  | returnTick : ChannelEvent cfg c fun u => (Work.idle u).returnTick (cfg.channel c)
  | sample (x : Contact) : ChannelEvent cfg c fun u => (Work.idle u).sample (cfg.channel c) x
  | assertion : ChannelEvent cfg c fun u => (Work.idle u).assertion (cfg.channel c) cfg.boostLength
  | qualifiedRelease : ChannelEvent cfg c fun u => (Work.idle u).qualifiedRelease (cfg.channel c)
  | firstQualification (x : Contact) :
      ChannelEvent cfg c fun u => (Work.idle u).firstQualification (cfg.channel c) x

/-- What an event at the Program Collector makes of the programs: it leaves the pending and the active program, it
activates the pending one, or it takes a clamped program newer than the active one as the pending one (R93, R96). -/
def Collector.becomes (k k' : Collector) : Prop :=
  k'.next = k.next ∧ k'.active = k.active ∨
  (∃ p, k.next = some p ∧ k'.active = some p ∧ k'.next = none) ∨
  ∃ p, k'.next = some p ∧ p.inRange ∧ (∀ q ∈ k.active, newer p.id q.id = true) ∧ k'.active = k.active

/-- The parts that no property of the programs, the resolver and the channels reads. -/
def unreadParts : List Part :=
  [.pending, .meetings, .power, .elapsed, .line, .origins, .relay, .time, .monitor, .status, .counters]

/-- A property of the programs, the resolver and the channels that each event keeps. -/
structure Kept (P : State → Prop) (cfg : Configuration) : Prop where
  unread : ∀ s t : State, s.keepsAllBut unreadParts t → P s → P t
  channel : ∀ (s : State) c f, ChannelEvent cfg c f → P s → P (s.onChannel c f)
  band : ∀ (s : State) b, P s → P (s.setResolver { s.resolver with band := b })
  index : ∀ (s : State) windows, P s → P (s.handIndex (registerIndex cfg s.programs.active s.time windows))
  windows : ∀ (s : State) (ws : List (Option Window)), ws.length = s.resolver.windows.length →
    (∀ slot ∈ ws, ∀ w ∈ slot, some w ∈ s.resolver.windows ∨ w.sound) → P s → P (s.writeWindows ws)
  programs : ∀ (s : State) k, s.programs.becomes k → P s → P (s.setPrograms k)

/-! ## The windows an event writes -/

theorem mem_freeExpired {clock : Moment} {windows : List (Option Window)} {w : Window}
    (h : some w ∈ freeExpired clock windows) : some w ∈ windows := by
  unfold freeExpired at h
  obtain ⟨slot, hslot, hw⟩ := List.mem_map.1 h
  cases slot with
  | none => cases hw
  | some v =>
    dsimp only at hw
    split_ifs at hw
    exact hw ▸ hslot

theorem mem_clearAll {origin : Byte} {serial : Word} {windows : List (Option Window)} {w : Window}
    (h : some w ∈ clearAll origin serial windows) : some w ∈ windows := by
  unfold clearAll at h
  obtain ⟨slot, hslot, hw⟩ := List.mem_map.1 h
  cases slot with
  | none => cases hw
  | some v =>
    dsimp only at hw
    split_ifs at hw
    exact hw ▸ hslot

@[simp] theorem length_freeExpired (clock : Moment) (windows : List (Option Window)) :
    (freeExpired clock windows).length = windows.length := List.length_map _

@[simp] theorem length_clearAll (origin : Byte) (serial : Word) (windows : List (Option Window)) :
    (clearAll origin serial windows).length = windows.length := List.length_map _

/-! ## Orders as read -/

/-- An order is read with its parameters in their ranges (R104, R127, R132). -/
def Order.inRange : Order → Prop
  | .record o => o.inRange
  | .setWindow _ start stop band _ => start.minute ≤ 1439 ∧ stop.minute ≤ 1439 ∧ band ≤ 15
  | .clearWindow _ | .forceSafe _ | .release | .unknown => True

theorem orderOf_inRange (payload : List Byte) : (orderOf payload).inRange := by
  have hminutes : ∀ n, clamp 0 1080 n ≤ 1080 := fun n => clamp_le (by decide)
  have hportion : ∀ n, 10 ≤ clamp 10 3600 n ∧ clamp 10 3600 n ≤ 3600 := fun n =>
    ⟨le_clamp, clamp_le (by decide)⟩
  unfold orderOf
  dsimp only
  split_ifs
  · exact ⟨hminutes _, Nat.le_of_lt_succ (BitVec.isLt _), hminutes _⟩
  · exact ⟨hportion _, hportion _, hminutes _⟩
  · exact trivial
  · exact trivial
  iterate 2 exact ⟨clamp_le (by decide), clamp_le (by decide), Nat.le_of_lt_succ (bitsOf_lt _ 0 4)⟩
  all_goals exact trivial

/-! ## What the operations keep -/

namespace Kept

variable {P : State → Prop} {cfg : Configuration} {s : State}

theorem of_frame (h : Kept P cfg) {ps : List Part} {t : State} (hf : s.keepsAllBut ps t) (hs : P s)
    (hps : ∀ p ∈ ps, p ∈ unreadParts := by decide) : P t :=
  h.unread s t (hf.mono hps) hs

theorem onEachChannel (h : Kept P cfg) {f : Channel → ChannelUnit → Work} (hs : P s)
    (hf : ∀ c, ChannelEvent cfg c (f c)) : P (s.onEachChannel f) :=
  s.onEachChannel_keeps f (fun c s => h.channel s c (f c) (hf c)) hs

theorem setCondition (h : Kept P cfg) (k : Condition) (x : Bool) (hs : P s) : P (s.setCondition cfg k x) := by
  unfold State.setCondition
  split_ifs
  · exact hs
  · exact h.onEachChannel (h.of_frame (State.noteChange_frame _) (h.of_frame (State.setMonitor_frame _ s) hs))
      fun c => .stationCondition _ _

theorem reportStep (h : Kept P cfg) (hs : P s) : P (s.reportStep cfg) :=
  h.setCondition _ _ (h.of_frame (State.setMonitor_frame _ s) hs)

theorem restartSilence (h : Kept P cfg) (hs : P s) : P (s.restartSilence cfg) :=
  h.setCondition _ _ (h.of_frame (State.setMonitor_frame _ s) hs)

theorem silenceTick (h : Kept P cfg) (hs : P s) : P (s.silenceTick cfg) := by
  unfold State.silenceTick
  split
  · exact hs
  · split_ifs
    exacts [hs, h.setCondition _ _ (h.of_frame (State.setMonitor_frame _ s) hs),
      h.of_frame (State.setMonitor_frame _ s) hs]

theorem stepHoldTick (h : Kept P cfg) (hs : P s) : P (s.stepHoldTick cfg) := by
  unfold State.stepHoldTick
  split_ifs
  exacts [hs, h.setCondition _ _ (h.of_frame (State.setMonitor_frame _ s) hs),
    h.of_frame (State.setMonitor_frame _ s) hs]

theorem resolveOver (h : Kept P cfg) (ws : List (Option Window)) (hs : P s) : P (s.resolveOver cfg ws) := by
  have hband : P (s.handBand cfg (bandNow s.programs.active s.time ws)) := by
    unfold State.handBand
    split_ifs
    exacts [hs, h.onEachChannel (h.band s _ hs) fun c => .takeBand _]
  have hindex := h.index _ ws hband
  rwa [(State.handBand_frame cfg _ s .programs (by decide) : _ = s.programs),
    (State.handBand_frame cfg _ s .time (by decide) : _ = s.time)] at hindex

theorem resolve (h : Kept P cfg) (hs : P s) : P (s.resolve cfg) := h.resolveOver _ hs

theorem resolveAwaiting (h : Kept P cfg) (awaited : List Moment) (hs : P s) :
    P (s.resolveAwaiting cfg awaited) := h.resolveOver _ hs

theorem expireWindows (h : Kept P cfg) (hs : P s) : P s.expireWindows := by
  unfold State.expireWindows
  split_ifs
  · refine h.windows s _ (length_freeExpired _ _) (fun slot hslot w hw => .inl ?_) hs
    rw [Option.mem_def.1 hw] at hslot
    exact mem_freeExpired hslot
  · exact hs

theorem expireAndResolve (h : Kept P cfg) (hs : P s) : P (s.expireAndResolve cfg) :=
  h.resolve (h.expireWindows hs)

theorem setWindow (h : Kept P cfg) {origin : Byte} {serial : Word} {slot : Nat} {start stop : Minute}
    {band : Nat} {mode : WindowMode} (hr : start.minute ≤ 1439 ∧ stop.minute ≤ 1439 ∧ band ≤ 15) (hs : P s) :
    P (s.setWindow cfg origin serial slot start stop band mode) := by
  unfold State.setWindow
  split_ifs with _ hbefore
  iterate 3 exact h.of_frame (State.count_frame _ s) hs
  refine h.expireAndResolve (h.of_frame (State.count_frame _ _)
    (h.windows s _ (List.length_set ..) (fun slot hslot w hw => ?_) hs))
  rw [Option.mem_def.1 hw] at hslot
  obtain hin | hnew := List.mem_or_eq_of_mem_set hslot
  · exact .inl hin
  · rw [Option.some.inj hnew]
    exact .inr ⟨hr.1, hr.2.1, hr.2.2, by simpa using hbefore⟩

theorem clearWindow (h : Kept P cfg) {origin : Byte} {serial : Word} {slot : Nat} (hs : P s) :
    P (s.clearWindow cfg origin serial slot) := by
  have hcount : ∀ k, P (s.count k) := fun k => h.of_frame (State.count_frame k s) hs
  have hfreed : ∀ ws : List (Option Window), ws.length = s.resolver.windows.length →
      (∀ w, some w ∈ ws → some w ∈ s.resolver.windows) →
      P (((s.writeWindows ws).count .ordersApplied).resolve cfg) := fun ws hlen hws => by
    refine h.resolve (h.of_frame (State.count_frame _ _) (h.windows s ws hlen (fun slot hslot w hw => ?_) hs))
    rw [Option.mem_def.1 hw] at hslot
    exact .inl (hws w hslot)
  unfold State.clearWindow
  dsimp only
  split_ifs
  · exact hcount _
  · exact hcount _
  · refine hfreed _ (List.length_set ..) fun w hw => ?_
    exact (List.mem_or_eq_of_mem_set hw).resolve_right (by simp)
  · exact hcount _
  · exact hfreed _ (length_clearAll ..) fun w => mem_clearAll
  · exact hcount _

theorem activate (h : Kept P cfg) {awaited : List Moment} {p : Program} (hp : s.programs.next = some p)
    (hs : P s) : P (s.activate cfg awaited p) := by
  refine State.inSomeOrder_keeps (P := P) ?_ (h.of_frame (State.met_frame _) (h.of_frame (State.noteChange_frame _)
    (h.programs s _ (.inr (.inl ⟨p, hp, rfl, rfl⟩)) hs)))
  simp only [List.forall_mem_cons, List.not_mem_nil, false_implies, implies_true, and_true]
  exact ⟨fun t => h.resolveAwaiting _, fun t => h.setCondition _ _⟩

theorem examineAwaiting (h : Kept P cfg) (awaited : List Moment) (hs : P s) :
    P (s.examineAwaiting cfg awaited) := by
  unfold State.examineAwaiting
  split
  next p hp =>
    split_ifs
    exacts [h.activate hp hs, hs]
  · exact hs

theorem examineProgram (h : Kept P cfg) (hs : P s) : P (s.examineProgram cfg) := h.examineAwaiting [] hs

theorem clockEvent (h : Kept P cfg) (awaited : List Moment) (e : ClockEvent) (hs : P s) :
    P (s.clockEvent cfg awaited e) := by
  cases e
  exacts [h.resolveAwaiting _ hs, h.resolveAwaiting _ hs, h.resolveAwaiting _ (h.expireWindows hs),
    h.examineAwaiting _ hs]

theorem advanceClock (h : Kept P cfg) (hl : s.loader.load = .configured cfg) (hs : P s) :
    P s.advanceClock := by
  unfold State.advanceClock
  rw [hl]
  exact State.takeClockEvents_keeps (fun awaited e t => h.clockEvent awaited e) _
    (h.of_frame (State.met_frame _) (h.of_frame (State.setTime_frame _ s) hs))

theorem complete (h : Kept P cfg) (image : List Byte) (hs : P s) :
    P (s.complete cfg image) := by
  have hcount : ∀ {t : State} k, P t → P (t.count k) := fun k ht => h.of_frame (State.count_frame k _) ht
  have hemptied : P (s.setPrograms { s.programs with staging := none }) :=
    h.programs s _ (.inl ⟨rfl, rfl⟩) hs
  unfold State.complete
  dsimp only
  split_ifs with _ htick hnewer
  iterate 3 exact hcount _ hemptied
  refine h.examineProgram (hcount _ (h.programs _ _ (.inr (.inr ⟨_, rfl, programOf_inRange image (Nat.not_le.1 htick), ?_, rfl⟩))
    hemptied))
  simp only [newerThan, Bool.not_eq_true', Bool.not_eq_false, Bool.and_eq_true, Option.all_eq_true] at hnewer
  exact fun q hq => hnewer.2 q hq

theorem collect (h : Kept P cfg) (origin : Byte) (payload : List Byte) (hs : P s) :
    P (s.collect cfg origin payload) := by
  unfold State.collect
  dsimp only
  split_ifs
  exacts [h.complete _ hs, h.programs s _ (.inl ⟨rfl, rfl⟩) hs, hs]

theorem assemblyTick (h : Kept P cfg) (hs : P s) : P s.assemblyTick := by
  unfold State.assemblyTick
  split
  · exact hs
  · split_ifs
    · exact h.of_frame (State.count_frame _ _) (h.programs s _ (.inl ⟨rfl, rfl⟩) hs)
    · exact h.programs s _ (.inl ⟨rfl, rfl⟩) hs

theorem resolverTimeState (h : Kept P cfg) (before : TimeState) (hs : P s) :
    P (s.resolverTimeState cfg before) := by
  unfold State.resolverTimeState
  split_ifs
  exacts [h.expireAndResolve hs, h.resolve hs]

theorem reportTimeState (h : Kept P cfg) (before : TimeState) (hs : P s) :
    P (s.reportTimeState cfg before) := by
  unfold State.reportTimeState
  split_ifs
  · exact hs
  · refine State.inSomeOrder_keeps ?_ (h.of_frame (State.met_frame _) (h.of_frame (State.noteChange_frame s) hs))
    simp only [List.forall_mem_cons, List.not_mem_nil, false_implies, implies_true, and_true]
    exact ⟨fun t => h.resolverTimeState _, fun t => h.examineProgram, fun t => h.setCondition _ _⟩

theorem timeCountdown (h : Kept P cfg) (hl : s.loader.load = .configured cfg) (f : Timekeeper → Timekeeper)
    (hs : P s) : P (s.timeCountdown f) := by
  unfold State.timeCountdown
  rw [hl]
  exact h.reportTimeState _ (h.of_frame (State.setTime_frame _ s) hs)

theorem takeClasses (h : Kept P cfg) (b : Beacon) (hs : P s) : P (s.takeClasses cfg b) := by
  have htaken : P (s.setTime (s.time.takeClasses b)) := h.of_frame (State.setTime_frame _ s) hs
  unfold State.takeClasses
  dsimp only
  split_ifs
  exacts [htaken, h.resolve htaken]

theorem beacon (h : Kept P cfg) (b : Beacon) (age : Nat) (hs : P s) : P (s.beacon cfg b age) := by
  cases hvalid : beaconValid cfg b age with
  | false =>
    rw [State.beacon_of_invalid hvalid]
    exact h.of_frame (State.count_frame _ s) hs
  | true =>
    rw [State.beacon_of_valid hvalid, beaconReports_eq]
    refine State.inSomeOrder_keeps (fun act ha t ht => ?_)
      (h.of_frame (State.met_frame _) (h.of_frame (State.decided_frame _ _ _ s) hs))
    rw [List.mem_append, mem_earlierReports, List.mem_singleton] at ha
    obtain (⟨-, rfl | rfl⟩ | ⟨-, rfl⟩ | ⟨-, rfl | rfl | rfl⟩) | rfl := ha
    exacts [h.expireAndResolve ht, h.examineProgram ht, h.reportStep ht, h.resolverTimeState _ ht,
      h.examineProgram ht, h.setCondition _ _ ht, h.takeClasses b ht]

theorem atNamedChannels (h : Kept P cfg) {payload : List Byte} {f : ChannelConfig → Work → Work}
    (hf : ∀ c, ChannelEvent cfg c fun u => f (cfg.channel c) (Work.idle u)) (hs : P s) :
    P (s.atNamedChannels cfg payload f) := by
  refine h.onEachChannel hs fun c => ?_
  by_cases hc : namesChannel payload c = true
  · simpa only [if_pos hc] using hf c
  · simpa only [if_neg hc] using ChannelEvent.idle

theorem routeOrder (h : Kept P cfg) (copy : List Byte) (hs : P s) : P (s.routeOrder cfg copy) := by
  have hrange := orderOf_inRange (payloadOf copy)
  unfold State.routeOrder
  split
  next o ho => exact h.atNamedChannels (fun c => .order _ _ _ o (by rwa [ho] at hrange)) hs
  next ho => exact h.setWindow (by rwa [ho] at hrange) hs
  · exact h.clearWindow hs
  · exact h.atNamedChannels (fun c => .forceSafe _ _ _ _) hs
  · exact h.atNamedChannels (fun c => .release) hs
  · exact h.of_frame (State.count_frame _ s) hs

theorem route (h : Kept P cfg) (copy : List Byte) (hs : P s) : P (s.route cfg copy) := by
  unfold State.route
  split_ifs
  exacts [h.beacon _ _ hs, h.routeOrder copy hs, hs, h.collect _ _ hs, hs, hs]

theorem filter (h : Kept P cfg) (copy : List Byte) (margin : Nat) (hs : P s) : P (s.filter cfg copy margin) := by
  refine State.filter_cases (fun k => h.of_frame (State.count_frame k s) hs)
    (fun i _ _ => h.of_frame (State.echo_frame cfg i copy _ s) hs) fun _ => ?_
  refine State.inSomeOrder_keeps ?_ (h.of_frame (State.met_frame s) hs)
  simp only [List.forall_mem_cons, List.not_mem_nil, false_implies, implies_true, and_true]
  exact ⟨fun t => h.of_frame (State.recordAcceptance_frame copy t),
    fun t => h.of_frame (State.openEntry_frame cfg copy margin _ t), fun t => h.restartSilence,
    fun t => h.route copy⟩

theorem receive (h : Kept P cfg) (bytes : List Byte) (levels : Rat) (hs : P s) :
    P (s.receive cfg bytes levels) :=
  State.receive_cases hs fun _ _ _ _ copy margin _ =>
    h.filter copy margin (h.of_frame s.endReception_frame hs)

end Kept

/-! ## What the commands keep -/

/-- A command that restarts nothing, stops nothing and loads nothing keeps a property of the programs, the resolver
and the channels that is kept by each event of a part with the loaded values. -/
theorem State.after_keeps {P : State → Prop} {s : State}
    (unread : ∀ s t : State, s.keepsAllBut unreadParts t → P s → P t)
    (kept : ∀ cfg, s.loader.load = .configured cfg → Kept P cfg) {i : Instr}
    (hi : i ∉ [.coldRestart, .warmRestart, .nresetAsserted, .vholdLoss, .readRetry])
    (hr : ∀ a noise v, i ≠ .readAttemptEnd a noise v) (hs : P s) : P (s.after i) := by
  have hframe : (∀ p ∈ i.touches, p ∈ unreadParts) → P (s.after i) := fun hp =>
    unread s _ ((s.after_frame i).mono hp) hs
  have hconfigured : ∀ f : Configuration → State, (∀ cfg, Kept P cfg → P (f cfg)) → P (s.whenConfigured f) :=
    fun f hf => State.whenConfigured_cases hs fun cfg hcfg => hf cfg (kept cfg hcfg.2)
  have htimed : ∀ (t : State), (∀ cfg, s.loader.load = .configured cfg → Kept P cfg → P t) →
      ((∀ cfg, s.loader.load ≠ .configured cfg) → s.keepsAllBut unreadParts t) → P (s.whenRunning t) := by
    intro t hcfg hother
    refine State.whenRunning_cases hs fun _ => ?_
    by_cases hl : ∃ cfg, s.loader.load = .configured cfg
    · obtain ⟨cfg, hl⟩ := hl
      exact hcfg cfg hl (kept cfg hl)
    · exact unread s t (hother fun cfg h => hl ⟨cfg, h⟩) hs
  have hcountdown : ∀ f, P (s.whenRunning (s.timeCountdown f)) := fun f => by
    refine htimed _ (fun cfg hl h => h.timeCountdown hl f hs) fun hl => ?_
    unfold State.timeCountdown
    split
    · exact .refl _ s
    · split_ifs
      · exact (State.setTime_frame _ s).mono (by decide)
      · exact ((State.setTime_frame _ s).mono (by decide)).trans ((State.noteChange_frame _).mono (by decide))
    next cfg h => exact absurd h (hl cfg)
  cases i
  case coldRestart => exact absurd (by simp) hi
  case warmRestart => exact absurd (by simp) hi
  case nresetAsserted => exact absurd (by simp) hi
  case vholdLoss => exact absurd (by simp) hi
  case readRetry => exact absurd (by simp) hi
  case readAttemptEnd a noise v => exact absurd rfl (hr a noise v)
  case receptionEnd bytes levels => exact hconfigured _ fun cfg h => h.receive bytes levels hs
  case clockAdvance =>
    refine htimed _ (fun cfg hl h => h.advanceClock hl hs) fun hl => ?_
    rw [State.advanceClock_of_not_configured hl]
    exact (State.setTime_frame _ s).mono (by decide)
  case holdCountdownExpiry => exact hcountdown _
  case lostCountdownExpiry => exact hcountdown _
  case assemblyTimeout => exact hconfigured _ fun cfg h => h.assemblyTick hs
  case delayEnd c => exact hconfigured _ fun cfg h => h.channel s c _ .recordTick hs
  case runEnd c => exact hconfigured _ fun cfg h => h.channel s c _ .recordTick hs
  case portionEnd c => exact hconfigured _ fun cfg h => h.channel s c _ .recordTick hs
  case silenceExpiry => exact hconfigured _ fun cfg h => h.silenceTick hs
  case stepHoldExpiry => exact hconfigured _ fun cfg h => h.stepHoldTick hs
  case mainsFreqRaise =>
    refine hconfigured _ fun cfg h => ?_
    split_ifs
    exacts [h.setCondition _ _ hs, hs]
  case mainsFreqClear =>
    refine hconfigured _ fun cfg h => ?_
    split_ifs
    exacts [h.setCondition _ _ hs, hs]
  case returnCountdownExpiry c => exact hconfigured _ fun cfg h => h.channel s c _ .returnTick hs
  case dwellEnd c => exact hconfigured _ fun cfg h => h.channel s c _ .dwellTick hs
  case qualifiedAssertion c => exact hconfigured _ fun cfg h => h.channel s c _ .assertion hs
  case qualifiedRelease c => exact hconfigured _ fun cfg h => h.channel s c _ .qualifiedRelease hs
  case firstQualification c x => exact hconfigured _ fun cfg h => h.channel s c _ (.firstQualification x) hs
  case localInputSample c x => exact hconfigured _ fun cfg h => h.channel s c _ (.sample x) hs
  all_goals exact hframe (by simp [Instr.touches, unreadParts])

end Sys2Proof.Machine
end

section
/-! PROOF. Every step keeps the programs clamped and ordered, the index handed and driven, and the window table sound
(R88, R94, R103, R104, R114, R115, R180). -/

namespace Sys2Proof.Machine

/-! ## The register index -/

theorem Program.band_register_range {p : Program} (h : p.inRange) (n : Nat) :
    1 ≤ (p.band n).register ∧ (p.band n).register ≤ 8 := by
  obtain ⟨-, -, ⟨-, hbands⟩, -⟩ := h
  unfold Program.band
  by_cases hn : n < p.bands.length
  · rw [List.getD_eq_getElem _ _ hn]
    exact hbands _ (List.getElem_mem hn)
  · rw [List.getD_eq_default _ _ (Nat.not_lt.1 hn)]
    decide

/-- The index lies in 1 to 8 (R114). -/
theorem registerIndex_range {cfg : Configuration} {active : Option Program} (hcfg : cfg.inRange)
    (h : ∀ p ∈ active, p.inRange) (t : Timekeeper) (windows : List (Option Window)) :
    1 ≤ registerIndex cfg active t windows ∧ registerIndex cfg active t windows ≤ 8 := by
  have hfallback : 1 ≤ cfg.fallbackRegister ∧ cfg.fallbackRegister ≤ 8 := by
    obtain ⟨-, -, -, -, -, -, -, -, -, -, -, h, -⟩ := hcfg
    exact h
  unfold registerIndex
  split
  next p =>
    split_ifs
    exacts [Program.band_register_range (h p rfl) _, hfallback]
  · exact hfallback

/-! ## What the property reads -/

/-- The index, the programs and the window table are sound. -/
def State.tariffSound (s : State) : Prop := s.indexSound ∧ s.windowsSound

theorem State.tariffSound_of_same {s t : State} (hload : t.loader.load = s.loader.load)
    (hprograms : t.programs.next = s.programs.next ∧ t.programs.active = s.programs.active)
    (hregister : t.register = s.register) (hindex : t.resolver.index = s.resolver.index)
    (hwindows : t.resolver.windows = s.resolver.windows) (h : s.tariffSound) : t.tariffSound := by
  simp only [State.tariffSound, State.indexSound, Loader.inRange, Collector.ordered, State.windowsSound, hload,
    hprograms.1, hprograms.2, hregister, hindex, hwindows] at h ⊢
  exact h

theorem State.tariffSound_of_frame {ps : List Part} {s t : State} (hf : s.keepsAllBut ps t)
    (hps : ∀ p ∈ [Part.loader, .programs, .register, .resolver], p ∉ ps) (h : s.tariffSound) :
    t.tariffSound := by
  have hp : t.programs = s.programs := hf .programs (hps _ (by decide))
  have hr : t.resolver = s.resolver := hf .resolver (hps _ (by decide))
  exact State.tariffSound_of_same (congrArg Loader.load (hf .loader (hps _ (by decide))))
    ⟨congrArg _ hp, congrArg _ hp⟩ (hf .register (hps _ (by decide))) (congrArg _ hr) (congrArg _ hr) h

theorem State.tariffSound_of_loaded {ps : List Part} {s t : State} (hf : s.keepsAllBut ps t)
    (hload : t.loader.inRange) (hps : ∀ p ∈ [Part.programs, .register, .resolver], p ∉ ps)
    (h : s.tariffSound) : t.tariffSound := by
  obtain ⟨⟨-, hprograms, hindex⟩, hwindows⟩ := h
  have hp : t.programs = s.programs := hf .programs (hps _ (by decide))
  have hg : t.register = s.register := hf .register (hps _ (by decide))
  have hr : t.resolver = s.resolver := hf .resolver (hps _ (by decide))
  refine ⟨⟨hload, ?_⟩, ?_⟩
  · rw [hp, hg, hr]
    exact ⟨hprograms, hindex⟩
  · rwa [State.windowsSound, hr]

/-- An empty window table is sound. -/
theorem windows_replicate_sound :
    (List.replicate Config.windowSlots (none : Option Window)).length = Config.windowSlots ∧
      ∀ slot ∈ List.replicate Config.windowSlots (none : Option Window), ∀ w ∈ slot, w.sound :=
  ⟨List.length_replicate, fun _ hslot w hw => by
    rw [List.eq_of_mem_replicate hslot] at hw
    cases hw⟩

/-! ## What the events keep -/

theorem Collector.becomes_ordered {k k' : Collector} (h : k.becomes k') (hk : k.ordered) : k'.ordered := by
  obtain ⟨hnext, hactive, hnewer⟩ := hk
  obtain ⟨h1, h2⟩ | ⟨p, h1, h2, h3⟩ | ⟨p, h1, hp, hn, h2⟩ := h
  · rw [Collector.ordered, h1, h2]
    exact ⟨hnext, hactive, hnewer⟩
  · rw [Collector.ordered, h2, h3]
    exact ⟨by simp, by simpa using hnext p h1, by simp⟩
  · rw [Collector.ordered, h1, h2]
    exact ⟨by simpa using hp, hactive, by simpa using hn⟩

/-- Each event of a part with clamped values keeps the index, the programs and the window table sound. -/
theorem State.tariffSound_kept {cfg : Configuration} (hcfg : cfg.inRange) : Kept State.tariffSound cfg where
  unread _ _ hf := State.tariffSound_of_frame hf (by decide)
  channel s c f _ := State.tariffSound_of_frame (State.onChannel_frame c f s) (by decide)
  band _ _ := State.tariffSound_of_same rfl ⟨rfl, rfl⟩ rfl rfl rfl
  index s windows hs := by
    obtain ⟨⟨hl, hp, -⟩, hw⟩ := id hs
    obtain ⟨hlow, hhigh⟩ := registerIndex_range hcfg hp.2.1 s.time windows
    unfold State.handIndex
    split_ifs with hn
    · exact hs
    · exact ⟨⟨hl, hp, hlow, hhigh, rfl⟩, hw⟩
  windows s ws hlen hws hs := by
    obtain ⟨hi, hwlen, hsound⟩ := hs
    refine ⟨hi, hlen.trans hwlen, fun slot hslot w hw => ?_⟩
    obtain hin | hnew := hws slot hslot w hw
    exacts [hsound _ hin w rfl, hnew]
  programs s k hk hs := by
    obtain ⟨⟨hl, hp, hindex⟩, hw⟩ := hs
    exact ⟨⟨hl, Collector.becomes_ordered hk hp, hindex⟩, hw⟩

/-! ## The commands -/

theorem Collector.cleared_ordered (staging : Option Staging) : (Collector.mk staging none none).ordered := by
  simp [Collector.ordered]

/-- The cleared retained state is sound, whatever else stands (R193). -/
theorem State.clearRetained_tariffSound {s : State} (h : s.tariffSound) : s.clearRetained.tariffSound := by
  obtain ⟨⟨hl, -, hindex⟩, -⟩ := h
  exact ⟨⟨hl, Collector.cleared_ordered _, hindex⟩, windows_replicate_sound⟩

theorem attemptComplete_data {a : StoreAnswer} {image : List Byte} (hc : attemptComplete a = true)
    (h : attemptEnd a = .data image) : image.length = 66 := by
  simpa [attemptComplete, h] using hc

/-- The blocks' actions at found configured, whatever their order (R191): what an examination, a resolution and the
placement keep holds after it, when it holds once the loader and the other blocks have acted. -/
theorem State.foundConfigured_keeps {P : State → Prop} {cfg : Configuration} {noise : Rat} {v : Bool} {s : State}
    (kept : Kept P cfg) (placed : ∀ s : State, P s → P (s.placeChannels cfg))
    (loaded : ∀ t : State, s.keepsAllBut [.meetings, .power, .line, .origins, .relay, .time, .monitor, .loader,
      .status] t → t.loader = { s.loader with load := .configured cfg, retryAt := none } → P t) :
    P (s.foundConfigured cfg noise v) := by
  unfold State.foundConfigured
  refine State.inSomeOrder_keeps (P := P) ?_ (loaded _ (.of_fields fun p => by cases p <;> simp [State.same,
    State.endLoading]) rfl)
  simp only [List.forall_mem_cons, List.not_mem_nil, false_implies, implies_true, and_true]
  exact ⟨fun t => kept.examineProgram, placed, fun t => kept.expireAndResolve⟩

theorem State.after_tariffSound {s : State} (i : Instr) (h : s.tariffSound) : (s.after i).tariffSound := by
  by_cases hother : i ∉ [.coldRestart, .warmRestart, .nresetAsserted, .vholdLoss, .readRetry] ∧
      ∀ a noise v, i ≠ .readAttemptEnd a noise v
  · refine State.after_keeps (fun _ _ hf => State.tariffSound_of_frame hf (by decide)) (fun cfg hcfg => ?_)
      hother.1 hother.2 h
    have hin : s.loader.inRange := h.1.1
    rw [Loader.inRange, hcfg] at hin
    exact State.tariffSound_kept hin
  cases i <;> simp at hother
  case coldRestart =>
    rw [State.after_coldRestart]
    split_ifs
    · exact ⟨⟨trivial, Collector.cleared_ordered _, le_rfl, Nat.le_add_left 1 7, rfl⟩, windows_replicate_sound⟩
    · exact h
  case warmRestart =>
    rw [State.after_warmRestart]
    split_ifs
    · exact ⟨⟨trivial, h.1.2.1, le_rfl, Nat.le_add_left 1 7, rfl⟩, h.2⟩
    · exact h
  case nresetAsserted =>
    exact State.tariffSound_of_frame (State.cutOff_frame _) (by decide)
      (State.clearRetained_tariffSound (State.tariffSound_of_frame (s.setPower_frame _) (by decide) h))
  case vholdLoss =>
    have hpower := State.tariffSound_of_frame (s.setPower_frame { s.power with mark := false }) (by decide) h
    rw [State.after_vholdLoss]
    split_ifs
    exacts [hpower, State.clearRetained_tariffSound hpower]
  case readRetry =>
    rw [State.after_readRetry]
    refine State.whenRunning_cases h fun _ => ?_
    unfold State.retry
    split
    · split_ifs
      exacts [State.tariffSound_of_same (s := s) rfl ⟨rfl, rfl⟩ rfl rfl rfl h, h]
    · exact h
  case readAttemptEnd a noise v =>
    rw [State.after_readAttemptEnd]
    refine State.whenRunning_cases h fun _ => ?_
    split_ifs with hread
    · rw [Bool.and_eq_true] at hread
      refine State.judgeAttempt_cases (fun image => ?_) (fun image => ?_) fun image himage => ?_
      · exact State.tariffSound_of_same (s := s) rfl ⟨rfl, rfl⟩ rfl rfl rfl h
      · have hl := State.foundUnconfigured_loader v (s.setLoader { s.loader with
          bus := attemptActions a, image := image })
        refine State.tariffSound_of_loaded
          (((s.setLoader_frame _).mono (by decide)).trans (State.foundUnconfigured_frame v _)) ?_ (by decide) h
        simp only [Loader.inRange, hl]
      · have hin := configurationOf_inRange (attemptComplete_data hread.2 himage)
        refine State.foundConfigured_keeps (State.tariffSound_kept hin)
          (fun t => State.tariffSound_of_frame (State.placeChannels_frame _ t) (by decide)) fun t hf hl => ?_
        refine State.tariffSound_of_loaded (((s.setLoader_frame _).mono (by decide)).trans hf) ?_ (by decide) h
        simpa only [Loader.inRange, hl] using hin
    · exact h

/-- Settles O53: each event at the programs and the resolver keeps them sound (`State.tariffSound_kept`), and a
restart, a cleared retention domain and the end of loading leave a sound table behind. -/
theorem programsWindowsAndIndexStaySound : Obligations.ProgramsWindowsAndIndexStaySound := fun s t hs hstep =>
  step_keeps_of_reads (P := State.tariffSound) [.loader, .programs, .register, .resolver]
    (fun s t hst h => by
      have hp : t.programs = s.programs := hst .programs (by decide)
      have hr : t.resolver = s.resolver := hst .resolver (by decide)
      exact State.tariffSound_of_same (congrArg Loader.load (hst .loader (by decide)))
        ⟨congrArg _ hp, congrArg _ hp⟩ (hst .register (by decide)) (congrArg _ hr) (congrArg _ hr) h)
    (by decide) (fun s h => State.tariffSound_of_frame s.elapse_frame (by decide) h)
    (fun i s _ h => State.after_tariffSound i h) hs hstep

end Sys2Proof.Machine
end

section
/-! PROOF. Every step keeps each channel's countdowns and counts, and the loaded values that set them, within their
ranges (R130, R132 to R135, R160, R172, R175). -/

namespace Sys2Proof.Machine

/-! ## Override records -/

theorem Run.tick_inRange {r : Run} (h : r.inRange) : r.tick.1.inRange := by
  cases r with
  | indefinite => trivial
  | left n => exact (Nat.sub_le n 1).trans h

theorem runOf_inRange {minutes : Nat} (h : minutes ≤ 1080) : (runOf minutes).inRange := by
  unfold runOf
  split_ifs
  · trivial
  · show minutes * 60 ≤ 65535
    omega

theorem Cycle.turn_inRange {c : Cycle} (h : (Imposed.cycle c).inRange) : c.turn.inRange := by
  obtain ⟨hoff, hon, hleft, hrun, hstaged⟩ := h
  unfold Cycle.turn
  split
  · exact ⟨hoff, hon, hon.2, hrun, hstaged⟩
  · split_ifs
    · trivial
    · split
      next g hg =>
        obtain ⟨goff, gon, gduration⟩ := hstaged g hg
        exact ⟨goff, gon, goff.2, runOf_inRange gduration, by simp⟩
      · exact ⟨hoff, hon, hoff.2, hrun, hstaged⟩

theorem Imposed.tick_inRange {i : Imposed} (h : i.inRange) : i.tick.1.inRange := by
  cases i with
  | none => trivial
  | force l p =>
    cases p with
    | delay n r =>
      unfold Imposed.tick
      dsimp only
      split_ifs
      exacts [h.2, ⟨(Nat.sub_le n 1).trans h.1, h.2⟩]
    | run r =>
      unfold Imposed.tick
      dsimp only
      split_ifs
      exacts [trivial, Run.tick_inRange h]
  | cycle c =>
    obtain ⟨hoff, hon, hleft, hrun, hstaged⟩ := h
    have hticked := Run.tick_inRange hrun
    unfold Imposed.tick
    dsimp only
    split_ifs
    · trivial
    · exact Cycle.turn_inRange ⟨hoff, hon, hleft, hticked, hstaged⟩
    · exact ⟨hoff, hon, (Nat.sub_le _ 1).trans hleft, hticked, hstaged⟩

theorem switchRecord_inRange {slot age delay spread duration : Nat} {level : Level} {i : Imposed}
    (hduration : duration ≤ 1080) (h : switchRecord slot age level delay spread duration = some i) :
    i.inRange := by
  unfold switchRecord at h
  dsimp only at h
  split_ifs at h
  all_goals cases h
  · exact ⟨Nat.min_le_left _ _, runOf_inRange hduration⟩
  · trivial
  · show duration * 60 - _ ≤ 65535
    omega

theorem cycleRecord_inRange {slot age off on duration : Nat} {spread : Bool} {i : Imposed}
    (hoff : 10 ≤ off ∧ off ≤ 3600) (hon : 10 ≤ on ∧ on ≤ 3600) (hduration : duration ≤ 1080)
    (h : cycleRecord slot age off on duration spread = some i) : i.inRange := by
  have hleft : duration * 60 - age / 100 ≤ 65535 := by omega
  unfold cycleRecord at h
  dsimp only at h
  split_ifs at h
  all_goals cases h
  · exact ⟨hoff, hon, (Nat.sub_le off _).trans hoff.2, trivial, by simp⟩
  · exact ⟨hoff, hon, by show off + on - _ ≤ 3600; omega, trivial, by simp⟩
  · exact ⟨hoff, hon, (Nat.sub_le off _).trans hoff.2, hleft, by simp⟩
  · exact ⟨hoff, hon, by show off + on - _ ≤ 3600; omega, hleft, by simp⟩

theorem Imposed.setRunLength_inRange {n : Nat} {i : Imposed} (hn : n ≤ Config.most16) (h : i.inRange) :
    (i.setRunLength n).inRange := by
  cases i with
  | none => trivial
  | force l p =>
    cases p with
    | delay d r => exact ⟨h.1, hn⟩
    | run r => exact hn
  | cycle c =>
    obtain ⟨hoff, hon, hleft, -, hstaged⟩ := h
    exact ⟨hoff, hon, hleft, hn, hstaged⟩

theorem Imposed.cancel_inRange {finish : Bool} {i : Imposed} (h : i.inRange) : (i.cancel finish).inRange := by
  cases i with
  | none => trivial
  | force l p => trivial
  | cycle c =>
    obtain ⟨hoff, hon, hleft, hrun, -⟩ := h
    unfold Imposed.cancel
    dsimp only
    split_ifs
    exacts [⟨hoff, hon, hleft, hrun, by simp⟩, trivial]

theorem ChannelOrder.judge_inRange {slot age : Nat} {o : ChannelOrder} {i j : Imposed} (ho : o.inRange)
    (hi : i.inRange) (h : o.judge slot age i = some j) : j.inRange := by
  cases o with
  | switch level delay spread duration => exact switchRecord_inRange ho.2.2 h
  | cycle off on duration spread immediate =>
    obtain ⟨hoff, hon, hduration⟩ := ho
    unfold ChannelOrder.judge at h
    dsimp only at h
    split at h
    · split_ifs at h
      · exact cycleRecord_inRange hoff hon hduration h
      · cases h
        obtain ⟨foff, fon, fleft, frun, -⟩ := hi
        exact ⟨foff, fon, fleft, frun, by simpa using ⟨hoff, hon, hduration⟩⟩
    · exact cycleRecord_inRange hoff hon hduration h
  | adjust minutes =>
    obtain ⟨n, -, rfl⟩ := Option.map_eq_some_iff.1 h
    split_ifs
    exacts [trivial, Imposed.setRunLength_inRange (Nat.min_le_left _ _) hi]
  | cancel finish =>
    cases h
    exact Imposed.cancel_inRange hi

/-! ## A channel's unit -/

section
variable {cc : ChannelConfig} {w : Work}

/-- What an operation leaves of a unit that it changes in its output alone is in range when the dwell is. -/
theorem ChannelUnit.inRange_of_dwell {u v : ChannelUnit} (h : u.inRange)
    (hoverride : v.override.imposed = u.override.imposed) (hstate : v.state = u.state)
    (hinput : v.input = u.input) (hdwell : v.dwell ≤ 6000) : v.inRange := by
  obtain ⟨hi, hs, -, hc⟩ := h
  exact ⟨hoverride ▸ hi, hstate ▸ hs, hdwell, hinput ▸ hc⟩

theorem Work.drive_dwell_le (hcc : cc.inRange) (l : Level) : (w.drive cc l).unit.dwell ≤ 6000 := by
  show 100 * cc.minDwell ≤ 6000
  have hmin : cc.minDwell ≤ 60 := hcc.2.2.2
  omega

theorem Work.request_dwell_le (hcc : cc.inRange) (l : Level) (h : w.unit.dwell ≤ 6000) :
    (w.request cc l).unit.dwell ≤ 6000 := by
  unfold Work.request
  split_ifs
  exacts [h, Work.drive_dwell_le hcc l, h]

theorem Work.fallbackEntry_dwell_le (hcc : cc.inRange) (h : w.unit.dwell ≤ 6000) :
    (w.fallbackEntry cc).unit.dwell ≤ 6000 := by
  unfold Work.fallbackEntry
  split_ifs
  exacts [Work.request_dwell_le hcc _ h, h, Work.drive_dwell_le hcc _]

theorem Work.straight_dwell_le (hcc : cc.inRange) (l : Level) : (w.straight cc l).unit.dwell ≤ 6000 := by
  have hd := Work.drive_dwell_le (w := w) hcc l
  unfold Work.straight
  split_ifs <;> exact hd

theorem Work.rework_dwell_le (hcc : cc.inRange) (h : w.unit.dwell ≤ 6000) :
    (w.rework cc).unit.dwell ≤ 6000 := by
  unfold Work.rework
  split
  · exact h
  · dsimp only
    split_ifs
    exacts [h, Work.request_dwell_le hcc _ h]

theorem Work.takeDeferred_inRange (hcc : cc.inRange) (h : w.unit.inRange) :
    (w.takeDeferred cc).unit.inRange := by
  refine ChannelUnit.inRange_of_dwell h (by simp) (by simp) (by simp) ?_
  unfold Work.takeDeferred
  split
  · split_ifs
    exacts [h.2.2.1, Work.drive_dwell_le hcc _]
  · exact h.2.2.1

theorem Work.dwellTick_inRange (hcc : cc.inRange) (h : w.unit.inRange) : (w.dwellTick cc).unit.inRange := by
  obtain ⟨hi, hs, hd, hc⟩ := id h
  unfold Work.dwellTick
  split_ifs
  · exact h
  · exact Work.takeDeferred_inRange hcc ⟨hi, hs, Nat.zero_le _, hc⟩
  · exact ⟨hi, hs, (Nat.sub_le _ 1).trans hd, hc⟩

theorem Work.rework_inRange (hcc : cc.inRange) (h : w.unit.inRange) : (w.rework cc).unit.inRange :=
  ChannelUnit.inRange_of_dwell h (by simp) (by simp) (by simp) (Work.rework_dwell_le hcc h.2.2.1)

theorem Work.impose_inRange {i : Imposed} (hi : i.inRange) (h : w.unit.inRange) :
    (w.impose i).unit.inRange := by
  obtain ⟨-, hs, hd, hc⟩ := h
  exact ⟨by simpa using hi, by simpa using hs, by simpa using hd, by simpa using hc⟩

theorem Work.recordTick_inRange (hcc : cc.inRange) (h : w.unit.inRange) :
    (w.recordTick cc).unit.inRange := by
  have himposed := Work.impose_inRange (Imposed.tick_inRange h.1) h
  unfold Work.recordTick
  dsimp only
  split_ifs
  exacts [Work.rework_inRange hcc himposed, himposed]

theorem Work.order_inRange (hcc : cc.inRange) {slot age : Nat} {origin : Byte} {serial : Word}
    {o : ChannelOrder} (ho : o.inRange) (h : w.unit.inRange) :
    (w.order cc slot origin serial age o).unit.inRange := by
  unfold Work.order
  split_ifs
  · exact h
  · split
    · exact h
    next i hi =>
      exact Work.rework_inRange hcc (Work.impose_inRange (ChannelOrder.judge_inRange ho h.1 hi) h)
  · exact h

theorem Work.press_inRange (hcc : cc.inRange) {minutes : Nat} (hm : minutes ≤ 240) (h : w.unit.inRange) :
    (w.press cc minutes).unit.inRange := by
  unfold Work.press
  split
  · exact Work.rework_inRange hcc (Work.impose_inRange trivial h)
  · split_ifs
    · refine Work.rework_inRange hcc (w := (w.impose _).wroteBy _) (Work.impose_inRange ?_ h)
      show minutes * 60 ≤ 65535
      omega
    · exact h
  · exact h

theorem Work.takeBand_inRange (hcc : cc.inRange) (b : Option HandedBand) (h : w.unit.inRange) :
    (w.takeBand cc b).unit.inRange :=
  Work.rework_inRange hcc (w := w.put { w.unit with band := b }) h

theorem Work.enterHold_inRange (hcc : cc.inRange) (h : w.unit.inRange) : (w.enterHold cc).unit.inRange := by
  obtain ⟨hi, -, hd, hc⟩ := h
  exact ⟨by simpa using hi, by simp [ChannelState.inRange], Work.fallbackEntry_dwell_le hcc hd, by simpa using hc⟩

theorem Work.enterNormal_inRange (hcc : cc.inRange) (h : w.unit.inRange) :
    (w.enterNormal cc).unit.inRange := by
  obtain ⟨hi, -, hd, hc⟩ := h
  exact Work.rework_inRange hcc (w := w.report { w.unit with state := .normal }) ⟨hi, trivial, hd, hc⟩

theorem stagger_le {minutes slot : Nat} (hm : minutes ≤ 255) (hs : slot ≤ 255) : stagger minutes slot ≤ 15240 := by
  have hmul : minutes * 60 * slot ≤ 255 * 60 * 255 := Nat.mul_le_mul (Nat.mul_le_mul_right 60 hm) hs
  unfold stagger
  omega

theorem ChannelConfig.returnSeconds_le (hcc : cc.inRange) {slot : Nat} (hs : slot ≤ 255) :
    cc.returnSeconds slot ≤ 30540 := by
  obtain ⟨hbase, hspread, -⟩ := hcc
  have hstagger := stagger_le hspread hs
  unfold ChannelConfig.returnSeconds
  omega

theorem Work.beginReturn_inRange (hcc : cc.inRange) {slot : Nat} (hs : slot ≤ 255) (h : w.unit.inRange) :
    (w.beginReturn cc slot).unit.inRange := by
  obtain ⟨hi, -, hd, hc⟩ := id h
  unfold Work.beginReturn
  split_ifs
  exacts [Work.enterNormal_inRange hcc h, ⟨hi, ChannelConfig.returnSeconds_le hcc hs, hd, hc⟩]

theorem Work.leaveHold_inRange (hcc : cc.inRange) {slot : Nat} (hs : slot ≤ 255) (h : w.unit.inRange) :
    (w.leaveHold cc slot).unit.inRange := by
  obtain ⟨hi, -, hd, hc⟩ := id h
  unfold Work.leaveHold
  split_ifs
  exacts [⟨hi, trivial, hd, hc⟩, Work.beginReturn_inRange hcc hs h]

theorem Work.conditionRaised_inRange (hcc : cc.inRange) (h : w.unit.inRange) :
    (w.conditionRaised cc).unit.inRange := by
  unfold Work.conditionRaised
  split_ifs
  exacts [h, Work.enterHold_inRange hcc h]

theorem Work.conditionCleared_inRange (hcc : cc.inRange) {slot : Nat} (hs : slot ≤ 255) (active : Conditions)
    (h : w.unit.inRange) : (w.conditionCleared cc slot active).unit.inRange := by
  unfold Work.conditionCleared
  split_ifs
  exacts [Work.leaveHold_inRange hcc hs h, h]

theorem Work.stationCondition_inRange (hcc : cc.inRange) {slot : Nat} (hs : slot ≤ 255) (active : Conditions)
    (k : Condition) (h : w.unit.inRange) : (w.stationCondition cc slot active k).unit.inRange := by
  unfold Work.stationCondition
  split_ifs
  exacts [Work.conditionRaised_inRange hcc h, Work.conditionCleared_inRange hcc hs active h, h]

theorem Work.forceSafe_inRange (hcc : cc.inRange) {slot : Nat} (hs : slot ≤ 255) (active : Conditions)
    (origin : Byte) (serial : Word) (on : Bool) (h : w.unit.inRange) :
    (w.forceSafe cc slot active origin serial on).unit.inRange := by
  have hset : ({ w.unit with forced := on, setter := some (origin, serial) } : ChannelUnit).inRange := h
  unfold Work.forceSafe
  dsimp only
  split_ifs
  exacts [h, h, Work.conditionRaised_inRange hcc (w := w.report _) hset,
    Work.conditionCleared_inRange hcc hs active (w := w.report _) hset, h]

theorem Work.release_inRange (hcc : cc.inRange) (h : w.unit.inRange) : (w.release cc).unit.inRange := by
  unfold Work.release
  split_ifs
  · split
    exacts [Work.enterNormal_inRange hcc h, Work.enterNormal_inRange hcc h, h, h]
  · exact h

theorem Work.returnTick_inRange (hcc : cc.inRange) (h : w.unit.inRange) : (w.returnTick cc).unit.inRange := by
  obtain ⟨hi, hs, hd, hc⟩ := id h
  unfold Work.returnTick
  split
  next n hn =>
    have hle : n ≤ 30540 := by rwa [hn] at hs
    split_ifs
    exacts [h, Work.enterNormal_inRange hcc h, ⟨hi, (Nat.sub_le n 1).trans hle, hd, hc⟩]
  · exact h

theorem Work.place_inRange (hcc : cc.inRange) {slot : Nat} (hs : slot ≤ 255) (active : Conditions)
    (h : w.unit.inRange) : (w.place cc slot active).unit.inRange := by
  obtain ⟨hi, -, -, hc⟩ := h
  have hstraight : ∀ (x : ChannelState) l, x.inRange →
      ((w.report { w.unit with state := x }).straight cc l).unit.inRange := fun x l hx =>
    ⟨by simpa using hi, by simpa using hx, Work.straight_dwell_le hcc l, by simpa using hc⟩
  unfold Work.place
  dsimp only
  split_ifs
  exacts [hstraight .fallbackHold _ trivial, Work.beginReturn_inRange hcc hs (hstraight .fallbackHold _ trivial),
    hstraight .normal _ trivial]

/-! ## The local input -/

theorem LocalInput.stableAfter_le (i : LocalInput) (x : Contact) : i.stableAfter x ≤ 5 := by
  unfold LocalInput.stableAfter
  split_ifs
  exacts [Nat.min_le_left _ _, by decide]

/-- A sample taken, qualifying or not, leaves the counts in range. -/
theorem ChannelUnit.inRange_of_sample {u : ChannelUnit} (h : u.inRange) (q : Qualification) (x : Contact) :
    ({ u with input := ⟨q, x, u.input.stableAfter x⟩ } : ChannelUnit).inRange := by
  obtain ⟨hi, hs, hd, -⟩ := h
  exact ⟨hi, hs, hd, LocalInput.stableAfter_le _ _⟩

theorem Work.sample_inRange (x : Contact) (h : w.unit.inRange) : (w.sample cc x).unit.inRange := by
  unfold Work.sample
  split_ifs
  exacts [ChannelUnit.inRange_of_sample h _ x, h]

theorem Work.firstQualification_inRange (x : Contact) (h : w.unit.inRange) :
    (w.firstQualification cc x).unit.inRange := by
  unfold Work.firstQualification
  split_ifs
  exacts [ChannelUnit.inRange_of_sample h _ x, h]

theorem Work.assertion_inRange (hcc : cc.inRange) {minutes : Nat} (hm : minutes ≤ 240) (h : w.unit.inRange) :
    (w.assertion cc minutes).unit.inRange := by
  have hsampled := ChannelUnit.inRange_of_sample h .asserted .asserted
  unfold Work.assertion
  dsimp only
  split_ifs
  exacts [Work.press_inRange hcc hm (w := w.put _) hsampled, hsampled, h]

theorem Work.qualifiedRelease_inRange (hcc : cc.inRange) (h : w.unit.inRange) :
    (w.qualifiedRelease cc).unit.inRange := by
  have hsampled := ChannelUnit.inRange_of_sample h .released .released
  unfold Work.qualifiedRelease
  dsimp only
  split_ifs
  exacts [Work.takeDeferred_inRange hcc (w := w.put _) hsampled, hsampled, h]

end

/-- Each event at a channel keeps its countdowns and counts in range. -/
theorem ChannelEvent.keeps_inRange {cfg : Configuration} {c : Channel} {f : ChannelUnit → Work}
    (hf : ChannelEvent cfg c f) (hcfg : cfg.inRange) {u : ChannelUnit} (h : u.inRange) : (f u).unit.inRange := by
  obtain ⟨-, -, -, -, -, -, -, -, -, -, hslot, -, ⟨-, hboost⟩, -, -, -, hchannels⟩ := hcfg
  have hcc : (cfg.channel c).inRange := hchannels c (mem_channelList c)
  cases hf with
  | idle => exact h
  | order origin serial age o ho => exact Work.order_inRange hcc ho h
  | forceSafe active origin serial on => exact Work.forceSafe_inRange hcc hslot active origin serial on h
  | release => exact Work.release_inRange hcc h
  | stationCondition active k => exact Work.stationCondition_inRange hcc hslot active k h
  | takeBand b => exact Work.takeBand_inRange hcc b h
  | recordTick => exact Work.recordTick_inRange hcc h
  | dwellTick => exact Work.dwellTick_inRange hcc h
  | returnTick => exact Work.returnTick_inRange hcc h
  | sample x => exact Work.sample_inRange x h
  | assertion => exact Work.assertion_inRange hcc hboost h
  | qualifiedRelease => exact Work.qualifiedRelease_inRange hcc h
  | firstQualification x => exact Work.firstQualification_inRange x h

/-! ## The part -/

theorem State.countdownsSound_of_same {s t : State} (hload : t.loader.load = s.loader.load)
    (hchannels : t.channels = s.channels) (h : s.countdownsSound) : t.countdownsSound := by
  simp only [State.countdownsSound, Loader.inRange, hload, hchannels] at h ⊢
  exact h

theorem State.countdownsSound_of_frame {ps : List Part} {s t : State} (hf : s.keepsAllBut ps t)
    (hps : ∀ p ∈ [Part.loader, .channels], p ∉ ps) (h : s.countdownsSound) : t.countdownsSound :=
  State.countdownsSound_of_same (congrArg Loader.load (hf .loader (hps _ (by decide))))
    (hf .channels (hps _ (by decide))) h

/-- Each event of a part with clamped values keeps the countdowns in range. -/
theorem State.countdownsSound_kept {cfg : Configuration} (hcfg : cfg.inRange) :
    Kept State.countdownsSound cfg where
  unread _ _ hf := State.countdownsSound_of_frame hf (by decide)
  channel s c f hf hs := by
    refine ⟨hs.1, fun d => ?_⟩
    by_cases hd : d = c
    · subst hd
      rw [State.onChannel_get_self]
      exact hf.keeps_inRange hcfg (hs.2 d)
    · rw [State.onChannel_get_of_ne s f hd]
      exact hs.2 d
  band s b := State.countdownsSound_of_frame (s.setResolver_frame _) (by decide)
  index s windows := State.countdownsSound_of_frame (State.handIndex_frame _ s) (by decide)
  windows s ws _ _ := State.countdownsSound_of_frame (s.setResolver_frame _) (by decide)
  programs s k _ := State.countdownsSound_of_frame (s.setPrograms_frame _) (by decide)

theorem ChannelUnit.restart_inRange : ChannelUnit.restart.inRange := by
  simp [ChannelUnit.inRange, ChannelUnit.restart, Imposed.inRange, ChannelState.inRange]

/-- A restart leaves every channel's countdowns at 0. -/
theorem State.countdownsSound_of_restart {s : State} (hload : s.loader.load = .loading)
    (hchannels : s.channels = .all .restart) : s.countdownsSound := by
  refine ⟨by simp only [Loader.inRange, hload], fun c => ?_⟩
  rw [hchannels, Six.get_all]
  exact ChannelUnit.restart_inRange

theorem State.placeChannels_countdownsSound {cfg : Configuration} (hcfg : cfg.inRange) {s : State}
    (h : s.countdownsSound) : (s.placeChannels cfg).countdownsSound := by
  obtain ⟨hload, hchannels⟩ := h
  refine ⟨?_, fun c => ?_⟩
  · rwa [(State.placeChannels_frame cfg s .loader (by decide) : _ = s.loader)]
  · obtain ⟨-, -, -, -, -, -, -, -, -, -, hslot, -, -, -, -, -, hcc⟩ := hcfg
    unfold State.placeChannels
    dsimp only
    rw [State.onEachChannel_get]
    exact Work.place_inRange (hcc c (mem_channelList c)) hslot _ (hchannels c)

theorem State.foundUnconfigured_get (v : Bool) (s : State) (c : Channel) :
    (s.foundUnconfigured v).channels.get c =
      { s.channels.get c with state := .fallbackHold, handed := some .off } := by
  unfold State.foundUnconfigured
  rw [State.onEachChannel_get]
  rfl

theorem State.after_countdownsSound {s : State} (i : Instr) (h : s.countdownsSound) :
    (s.after i).countdownsSound := by
  by_cases hother : i ∉ [.coldRestart, .warmRestart, .nresetAsserted, .vholdLoss, .readRetry] ∧
      ∀ a noise v, i ≠ .readAttemptEnd a noise v
  · refine State.after_keeps (fun _ _ hf => State.countdownsSound_of_frame hf (by decide)) (fun cfg hcfg => ?_)
      hother.1 hother.2 h
    have hin : s.loader.inRange := h.1
    rw [Loader.inRange, hcfg] at hin
    exact State.countdownsSound_kept hin
  cases i <;> simp at hother
  case coldRestart =>
    rw [State.after_coldRestart]
    split_ifs
    exacts [State.countdownsSound_of_restart rfl rfl, h]
  case warmRestart =>
    rw [State.after_warmRestart]
    split_ifs
    exacts [State.countdownsSound_of_restart rfl rfl, h]
  case nresetAsserted => exact State.countdownsSound_of_frame (s.after_frame .nresetAsserted) (by decide) h
  case vholdLoss => exact State.countdownsSound_of_frame (s.after_frame .vholdLoss) (by decide) h
  case readRetry =>
    rw [State.after_readRetry]
    refine State.whenRunning_cases h fun _ => ?_
    unfold State.retry
    split
    · split_ifs
      exacts [State.countdownsSound_of_same (s := s) rfl rfl h, h]
    · exact h
  case readAttemptEnd a noise v =>
    rw [State.after_readAttemptEnd]
    refine State.whenRunning_cases h fun _ => ?_
    split_ifs with hread
    · rw [Bool.and_eq_true] at hread
      refine State.judgeAttempt_cases (fun image => ?_) (fun image => ?_) fun image himage => ?_
      · exact State.countdownsSound_of_same (s := s) rfl rfl h
      · refine ⟨by simp only [Loader.inRange, State.foundUnconfigured_loader], fun c => ?_⟩
        obtain ⟨hi, -, hd, hc⟩ := h.2 c
        rw [State.foundUnconfigured_get]
        exact ⟨hi, trivial, hd, hc⟩
      · have hin := configurationOf_inRange (attemptComplete_data hread.2 himage)
        refine State.foundConfigured_keeps (State.countdownsSound_kept hin)
          (fun t => State.placeChannels_countdownsSound hin) fun t hf hl => ?_
        refine ⟨by simpa only [Loader.inRange, hl] using hin, ?_⟩
        rw [(hf .channels (by decide) : t.channels = s.channels)]
        exact h.2
    · exact h

/-- Settles O56: each event at a channel sets its countdowns from clamped values or counts them down
(`ChannelEvent.keeps_inRange`), and so does a placement. -/
theorem countdownsStayInRange : Obligations.CountdownsStayInRange := fun s t hs hstep =>
  step_keeps_of_reads (P := State.countdownsSound) [.loader, .channels]
    (fun s t hst => State.countdownsSound_of_same (congrArg Loader.load (hst .loader (by decide)))
      (hst .channels (by decide)))
    (by decide)
    (fun s h => ⟨h.1, fun c => by
      have hget : s.elapse.channels.get c = (s.channels.get c).nextTick := Six.get_of _ _
      rw [hget]
      exact h.2 c⟩)
    (fun i s _ h => State.after_countdownsSound i h) hs hstep

end Sys2Proof.Machine
end

section
/-! PROOF. Every step keeps at most four origins, each once, with sound serial windows (R21, R22, R29). -/

namespace Sys2Proof.Machine

/-! ## Serial windows -/

theorem mem_insertDistance {k x : Nat} {xs : List Nat} : x ∈ insertDistance k xs ↔ x = k ∨ x ∈ xs := by
  induction xs with
  | nil => simp [insertDistance]
  | cons y ys ih =>
    unfold insertDistance
    split_ifs
    · simp
    · simp only [List.mem_cons, ih]
      tauto

theorem insertDistance_pairwise {k : Nat} {xs : List Nat} (h : xs.Pairwise (· < ·)) (hk : k ∉ xs) :
    (insertDistance k xs).Pairwise (· < ·) := by
  induction xs with
  | nil => simp [insertDistance]
  | cons y ys ih =>
    obtain ⟨hy, hys⟩ := List.pairwise_cons.1 h
    obtain ⟨hne, hnot⟩ : k ≠ y ∧ k ∉ ys := by simpa using hk
    unfold insertDistance
    split_ifs with hle
    · refine List.pairwise_cons.2 ⟨fun z hz => ?_, h⟩
      have hyz : y ≤ z := by
        obtain rfl | hz := List.mem_cons.1 hz
        exacts [le_rfl, (hy z hz).le]
      omega
    · refine List.pairwise_cons.2 ⟨fun z hz => ?_, ih hys hnot⟩
      obtain rfl | hz := mem_insertDistance.1 hz
      exacts [Nat.lt_of_not_le hle, hy z hz]

theorem mem_shiftSeen {d x : Nat} {seen : List Nat} :
    x ∈ shiftSeen d seen ↔ (x = d ∨ ∃ k ∈ seen, k + d = x) ∧ x ≤ 32 := by
  simp [shiftSeen]

theorem newer_iff (a b : Word) : newer a b = true ↔ 1 ≤ (a - b).toNat ∧ (a - b).toNat ≤ 32767 := by
  simp [newer]

theorem shiftSeen_sound {d : Nat} {seen : List Nat} (hd : 1 ≤ d) (h : (SerialWindow.mk 0 seen).sound) (hi : Word) :
    (SerialWindow.mk hi (shiftSeen d seen)).sound := by
  obtain ⟨hrising, hrange⟩ := h
  refine ⟨List.Pairwise.filter _ (List.pairwise_cons.2 ⟨fun x hx => ?_, ?_⟩), fun k hk => ?_⟩
  · obtain ⟨y, hy, rfl⟩ := List.mem_map.1 hx
    have := (hrange y hy).1
    omega
  · exact List.Pairwise.map _ (fun a b hab => Nat.add_lt_add_right hab d) hrising
  · obtain ⟨rfl | ⟨y, hy, rfl⟩, hle⟩ := mem_shiftSeen.1 hk
    exacts [⟨hd, hle⟩, ⟨by omega, hle⟩]

/-- A serial that is new to a sound window leaves it sound (R29). -/
theorem acceptSerial_sound {window : Option SerialWindow} {serial : Word} (h : ∀ w ∈ window, w.sound)
    (hnew : classify window serial = .new) : (acceptSerial window serial).sound := by
  cases window with
  | none => simp [acceptSerial, SerialWindow.sound]
  | some w =>
    obtain ⟨hrising, hrange⟩ := h w rfl
    unfold classify at hnew
    unfold acceptSerial
    dsimp only at hnew ⊢
    by_cases hn : newer serial w.highest = true
    · rw [if_pos hn]
      exact shiftSeen_sound ((newer_iff _ _).1 hn).1 ⟨hrising, hrange⟩ _
    · rw [if_neg hn]
      split_ifs at hnew with heq hle hmem
      have hfresh : olderBy serial w.highest ∉ w.seen := by simpa using hmem
      refine ⟨insertDistance_pairwise hrising hfresh, fun k hk => ?_⟩
      obtain rfl | hk := mem_insertDistance.1 hk
      · have := (serial - w.highest).isLt
        exact ⟨by unfold olderBy; omega, hle⟩
      · exact hrange k hk

/-! ## The table -/

theorem mem_distinctIds {x : Byte} {ids : List Byte} : x ∈ distinctIds ids ↔ x ∈ ids := by
  induction ids with
  | nil => simp [distinctIds]
  | cons y ys ih =>
    by_cases hxy : x = y <;> simp [distinctIds, ih, hxy]

theorem distinctIds_nodup (ids : List Byte) : (distinctIds ids).Nodup := by
  induction ids with
  | nil => simp [distinctIds]
  | cons y ys ih => exact List.nodup_cons.2 ⟨by simp, ih.filter _⟩

theorem length_distinctIds_le (ids : List Byte) : (distinctIds ids).length ≤ ids.length := by
  induction ids with
  | nil => simp [distinctIds]
  | cons y ys ih => exact Nat.succ_le_succ ((List.length_filter_le _ _).trans ih)

theorem OriginTable.rebuild_ids (o : OriginTable) (origins : List Byte) :
    (o.rebuild origins).entries.map (·.id) = distinctIds origins := by
  simp [OriginTable.rebuild, Function.comp_def]

/-- An entry takes up a window that the table or the dropped windows held (R22). -/
theorem OriginTable.windowFor_mem {o : OriginTable} {id : Byte} {w : SerialWindow} (h : o.windowFor id = some w) :
    ∃ e ∈ o.entries ++ o.dropped, e.window = some w := by
  unfold OriginTable.windowFor at h
  split at h
  next e he => exact ⟨e, List.mem_append_left _ (List.mem_of_find?_eq_some he), h⟩
  next =>
    obtain ⟨e, he, hw⟩ := Option.bind_eq_some_iff.1 h
    exact ⟨e, List.mem_append_right _ (List.mem_of_find?_eq_some he), hw⟩

theorem OriginTable.rebuild_sound {o : OriginTable} {origins : List Byte} (hlen : origins.length ≤ 4) (h : o.sound) :
    (o.rebuild origins).sound := by
  obtain ⟨-, -, hentries, hdropped⟩ := h
  refine ⟨?_, ?_, fun e he w hw => ?_, fun e he w hw => ?_⟩
  · have hle := length_distinctIds_le origins
    have hmap := congrArg List.length (o.rebuild_ids origins)
    rw [List.length_map] at hmap
    omega
  · rw [o.rebuild_ids]
    exact distinctIds_nodup origins
  · obtain ⟨id, -, rfl⟩ := List.mem_map.1 he
    obtain ⟨f, hf, hfw⟩ := OriginTable.windowFor_mem hw
    obtain hf | hf := List.mem_append.1 hf
    exacts [hentries f hf w hfw, hdropped f hf w hfw]
  · obtain hf | hf := List.mem_append.1 (List.mem_of_mem_filter he)
    exacts [hdropped e hf w hw, hentries e hf w hw]

/-- The acceptance of a serial that its origin's window calls new keeps the table sound (R29, R30). -/
theorem OriginTable.accept_sound {o : OriginTable} {id : Byte} {serial : Word} {entry : OriginEntry} (h : o.sound)
    (hfind : o.find id = some entry) (hnew : classify entry.window serial = .new) : (o.accept id serial).sound := by
  obtain ⟨hlen, hnodup, hentries, hdropped⟩ := h
  have hids : (o.accept id serial).entries.map (·.id) = o.entries.map (·.id) := by
    simp only [OriginTable.accept, List.map_map]
    refine List.map_congr_left fun e _ => ?_
    simp only [Function.comp_apply]
    split_ifs <;> rfl
  have hid : entry.id = id := by simpa using List.find?_some hfind
  refine ⟨by simpa [OriginTable.accept] using hlen, hids ▸ hnodup, fun e he w hw => ?_, hdropped⟩
  obtain ⟨f, hf, rfl⟩ := List.mem_map.1 he
  split_ifs at hw with hfid
  · have hsame : f = entry :=
      List.inj_on_of_nodup_map hnodup hf (List.mem_of_find?_eq_some hfind) (hfid.trans hid.symm)
    subst hsame
    cases hw
    exact acceptSerial_sound (hentries f hf) hnew
  · exact hentries f hf w hw

/-! ## The commands -/

/-- Of the four actions of an acceptance the first alone touches the Origin Table (R30). -/
theorem State.accept_origins (cfg : Configuration) (copy : List Byte) (margin : Nat) (s : State) :
    (s.accept cfg copy margin).origins = s.origins.accept (originOf copy) (serialOf copy) := by
  refine State.inSomeOrder_one State.origins (·.accept (originOf copy) (serialOf copy)) [] _ _ ?_ fun t => rfl
  simp only [List.nil_append, List.forall_mem_cons, List.not_mem_nil, false_implies, implies_true, and_true]
  exact ⟨fun t => State.openEntry_frame _ _ _ _ t .origins (by decide),
    fun t => State.restartSilence_frame _ t .origins (by decide),
    fun t => State.route_frame _ _ t .origins (by decide)⟩

theorem State.filter_originsSound {cfg : Configuration} {copy : List Byte} {margin : Nat} {s : State}
    (h : s.originsSound) : (s.filter cfg copy margin).originsSound := by
  refine State.filter_cases (fun k => h) (fun i _ _ => ?_) fun ⟨_, _, _, entry, hfind, hnew⟩ => ?_
  · rwa [State.originsSound, (State.echo_frame _ _ _ _ s .origins (by decide) : _ = s.origins)]
  · rw [State.originsSound, State.accept_origins]
    exact OriginTable.accept_sound h hfind hnew

theorem State.foundConfigured_origins (cfg : Configuration) (noise : Rat) (v : Bool) (s : State) :
    (s.foundConfigured cfg noise v).origins = s.origins.rebuild cfg.origins := by
  refine State.inSomeOrder_none State.origins _ ?_
  simp only [List.forall_mem_cons, List.not_mem_nil, false_implies, implies_true, and_true]
  exact ⟨fun t => State.examineProgram_frame _ t .origins (by decide),
    fun t => State.placeChannels_frame _ t .origins (by decide),
    fun t => State.expireAndResolve_frame _ t .origins (by decide)⟩

theorem State.foundUnconfigured_origins (v : Bool) (s : State) : (s.foundUnconfigured v).origins = s.origins :=
  State.foundUnconfigured_same (p := .origins) v s (by decide)

theorem OriginTable.cold_sound : OriginTable.cold.sound := by
  simp [OriginTable.sound, OriginTable.cold]

theorem State.after_originsSound {s : State} (i : Instr) (hi : Part.origins ∈ i.touches) (h : s.originsSound) :
    (s.after i).originsSound := by
  cases i <;> simp [Instr.touches] at hi
  case coldRestart =>
    rw [State.after_coldRestart]
    split_ifs
    exacts [OriginTable.cold_sound, h]
  case warmRestart =>
    rw [State.after_warmRestart]
    split_ifs
    exacts [h, h]
  case nresetAsserted => exact OriginTable.cold_sound
  case vholdLoss =>
    rw [State.after_vholdLoss]
    split_ifs
    exacts [h, OriginTable.cold_sound]
  case readAttemptEnd a noise v =>
    rw [State.after_readAttemptEnd]
    refine State.whenRunning_cases h fun _ => ?_
    split_ifs with hread
    · rw [Bool.and_eq_true] at hread
      refine State.judgeAttempt_cases (fun image => h) (fun image => ?_) fun image himage => ?_
      · rwa [State.originsSound, State.foundUnconfigured_origins]
      · obtain ⟨-, -, -, -, -, -, -, -, -, -, -, -, -, ⟨-, hlen⟩, -⟩ :=
          configurationOf_inRange (attemptComplete_data hread.2 himage)
        rw [State.originsSound, State.foundConfigured_origins]
        exact OriginTable.rebuild_sound hlen h
    · exact h
  case receptionEnd bytes levels =>
    rw [State.after_receptionEnd]
    refine State.whenConfigured_cases h fun cfg _ => State.receive_cases h fun _ _ _ _ copy margin _ => ?_
    exact State.filter_originsSound (s := s.endReception) h

theorem originsSound_kept {s t : State} (hs : s.originsSound) (hstep : step s = .next t) : t.originsSound :=
  step_keeps_of_reads (P := State.originsSound) [.origins]
    (fun s t hst h => by rwa [State.originsSound, (hst .origins (by decide) : t.origins = s.origins)])
    (by decide) (fun s h => h) (fun i s hi h => State.after_originsSound i (by simpa using hi) h) hs hstep

end Sys2Proof.Machine
end

section
/-! PROOF. What the operations of the line and of the Relay Engine make of the line and of the Relay Engine, said
once (sections 1.5, 1.6 and chapter 3). -/

namespace Sys2Proof.Machine

/-! ## The line turns BUSY or QUIET -/

/-- The access state on a BUSY line (R51). -/
def Access.busied (a : Access) : Access := if a = .transmitting then .transmitting else .lineBusy

theorem Access.busied_onQuietLine (a : Access) : a.busied.onQuietLine = false := by
  cases a <;> simp [Access.busied, Access.onQuietLine]

theorem Access.busied_eq_transmitting_iff (a : Access) : a.busied = .transmitting ↔ a = .transmitting := by
  cases a <;> simp [Access.busied]

section
variable (s : State)

theorem State.reportBusy_relay : s.reportBusy.relay = { s.relay with access := s.relay.access.busied } := by
  cases hr : s.relay with
  | mk heard access generator dueTo =>
    cases access <;> simp [State.reportBusy, State.setAccess, Access.busied, hr]

@[simp] theorem State.turnBusy_line : s.turnBusy.line = { s.line with indication := .busy } := by
  unfold State.turnBusy
  split
  · rw [(State.reportBusy_frame _ .line (by decide) : _ = _)]
    rfl
  next h => rw [← h]

theorem State.turnBusy_relay : s.turnBusy.relay =
    if s.line.indication = .quiet then { s.relay with access := s.relay.access.busied } else s.relay := by
  unfold State.turnBusy
  split
  next h => rw [if_pos h, State.reportBusy_relay]; rfl
  next h => rw [if_neg (by simp [h])]

@[simp] theorem State.turnQuiet_line : s.turnQuiet.line = { s.line with indication := .quiet } := by
  unfold State.turnQuiet
  split
  · rw [(State.reportQuiet_frame _ .line (by decide) : _ = _)]
    rfl
  next h => rw [← h]

theorem State.turnQuiet_relay_of_not_waiting (h : s.line.indication = .quiet ∨ s.relay.access ≠ .lineBusy) :
    s.turnQuiet.relay = s.relay := by
  unfold State.turnQuiet
  split
  next hb =>
    have hne : s.relay.access ≠ .lineBusy := h.resolve_left (by simp [hb])
    unfold State.reportQuiet
    split
    next ha => exact absurd ha hne
    · rfl
  · rfl

theorem State.turnQuiet_relay_of_due (hb : s.line.indication = .busy) (ha : s.relay.access = .lineBusy)
    (h : s.someEntryDue) : s.turnQuiet.relay = { s.relay with
      access := .backoff (s.elapsed + backoffDraw s.relay.generator), generator := s.relay.drawOnce.generator } := by
  have hchosen : chosenEntry s.dueBy s.relay.heard ≠ none := fun hn => s.chosenEntry_dueBy_none.1 hn h
  obtain ⟨i, hi⟩ := Option.ne_none_iff_exists'.1 hchosen
  have hi' : chosenEntry (s.setLine { s.line with indication := .quiet }).dueBy s.relay.heard = some i := hi
  simp [State.turnQuiet, State.reportQuiet, hb, ha, hi', State.setAccess, Relay.drawOnce]

theorem State.turnQuiet_relay_of_none_due (hb : s.line.indication = .busy) (ha : s.relay.access = .lineBusy)
    (h : ¬ s.someEntryDue) : s.turnQuiet.relay = { s.relay with access := .lineQuiet } := by
  have hi : chosenEntry (s.setLine { s.line with indication := .quiet }).dueBy s.relay.heard = none :=
    s.chosenEntry_dueBy_none.2 h
  simp [State.turnQuiet, State.reportQuiet, hb, ha, hi, State.setAccess]

/-- The backoff lies in 1 to 16 (R50). -/
theorem backoffDraw_range (g : Generator) : 1 ≤ backoffDraw g ∧ backoffDraw g ≤ 16 := by
  have := Nat.mod_lt g.next (y := 16) (by decide)
  unfold backoffDraw
  omega

/-! ## Whatever the line does, the Heard Table stands -/

/-- The Heard Table and what has fallen due are the same. -/
def Relay.sameTable (r r' : Relay) : Prop := r'.heard = r.heard ∧ r'.dueTo = r.dueTo

theorem State.turnBusy_sameTable : s.relay.sameTable s.turnBusy.relay := by
  rw [State.turnBusy_relay]
  split_ifs <;> exact ⟨rfl, rfl⟩

theorem State.turnQuiet_sameTable : s.relay.sameTable s.turnQuiet.relay := by
  by_cases h : s.line.indication = .quiet ∨ s.relay.access ≠ .lineBusy
  · rw [State.turnQuiet_relay_of_not_waiting s h]
    exact ⟨rfl, rfl⟩
  · push Not at h
    have hb : s.line.indication = .busy := by
      cases hi : s.line.indication with
      | busy => rfl
      | quiet => exact absurd hi h.1
    by_cases hd : s.someEntryDue
    · rw [State.turnQuiet_relay_of_due s hb h.2 hd]
      exact ⟨rfl, rfl⟩
    · rw [State.turnQuiet_relay_of_none_due s hb h.2 hd]
      exact ⟨rfl, rfl⟩

/-! ## The offer -/

theorem Line.takes_iff (l : Line) : l.takes = true ↔ l.slot = .idle ∧ l.indication = .quiet := by
  simp [Line.takes]

section
variable {s}
variable {i : Nat} {e : HeardEntry} {stored : List Byte} {received due : Nat}

theorem State.offer_of_taken (hi : chosenEntry s.dueBy s.relay.heard = some i)
    (he : entryAt s.relay.heard i = some e) (hr : e.relay = .pending stored received due)
    (ht : s.line.slot = .idle ∧ s.line.indication = .quiet) : s.offer = s.transmit i e stored received := by
  simp [State.offer, hi, he, hr, s.line.takes_iff.2 ht]

theorem State.offer_of_refused (hi : chosenEntry s.dueBy s.relay.heard = some i)
    (he : entryAt s.relay.heard i = some e) (hr : e.relay = .pending stored received due)
    (ht : ¬ (s.line.slot = .idle ∧ s.line.indication = .quiet)) : s.offer = s.setAccess .lineBusy := by
  have hf : s.line.takes = false := by rwa [← Bool.not_eq_true, s.line.takes_iff]
  simp [State.offer, hi, he, hr, hf]

end

/-- An offer finds no entry due, or is taken, or is refused (R53, R55). -/
theorem State.offer_cases {P : State → Prop} {s : State} (idle : P s)
    (taken : ∀ i e stored received due, entryAt s.relay.heard i = some e → e.relay = .pending stored received due →
      s.line.slot = .idle → s.line.indication = .quiet → P (s.transmit i e stored received))
    (refused : ¬ (s.line.slot = .idle ∧ s.line.indication = .quiet) → P (s.setAccess .lineBusy)) : P s.offer := by
  unfold State.offer
  split
  · exact idle
  next i _ =>
    split
    next e he =>
      split
      next stored received due hr =>
        split_ifs with ht
        · obtain ⟨hslot, hquiet⟩ := s.line.takes_iff.1 ht
          exact taken i e stored received due he hr hslot hquiet
        · exact refused fun h => ht (s.line.takes_iff.2 h)
      · exact idle
    · exact idle

/-- At its end a backoff makes an offer, or finds no entry due (R52). -/
theorem State.endBackoff_cases {P : State → Prop} {s : State} (early : P s)
    (offers : ∀ ends, s.relay.access = .backoff ends → P s.offer)
    (quiet : ∀ ends, s.relay.access = .backoff ends → P (s.setAccess .lineQuiet)) : P s.endBackoff := by
  unfold State.endBackoff
  split
  next ends ha =>
    split_ifs
    · split
      exacts [offers ends ha, quiet ends ha]
    · exact early
  · exact early

/-! ## A clean tick -/

/-- A clean tick moves the noise estimate, and turns the line QUIET where a CONFIGURED part's line is free; any
other tick changes nothing. -/
theorem State.cleanTick_cases {P : State → Prop} {level : Rat} {s : State} (idle : P s)
    (moves : P (s.moveNoise level))
    (quiets : ∀ cfg, s.loader.load = .configured cfg → s.line.taken s.elapsed = false →
      P (s.moveNoise level).turnQuiet) : P (s.cleanTick level) := by
  unfold State.cleanTick
  split
  · split
    next cfg hl =>
      split_ifs with ht
      exacts [moves, quiets cfg hl (by simpa using ht)]
    · exact moves
    · exact idle
  · exact idle

/-! ## A transmission's end -/

/-- The SENDING entry's place is found (R56). -/
theorem sendingPlace_eq_some {heard : List (Option HeardEntry)} {i : Nat} {e : HeardEntry} {stored : List Byte}
    {received : Nat} (he : entryAt heard i = some e) (hr : e.relay = .sending stored received)
    (hfirst : ∀ j f c r, entryAt heard j = some f → f.relay = .sending c r → i ≤ j) :
    sendingPlace heard = some i := by
  have hget := entryAt_eq_some.1 he
  unfold sendingPlace
  rw [List.findIdx?_eq_some_iff_getElem]
  refine ⟨entryAt_lt he, ?_, fun j hj => ?_⟩
  · rw [(List.getElem?_eq_some_iff.1 hget).2]
    simp [hr]
  · rw [Bool.not_eq_true, Option.any_eq_false]
    intro f hf
    have hjf : entryAt heard j = some f := entryAt_eq_some.2 (List.getElem?_eq_some_iff.2 ⟨_, hf⟩)
    split
    next c r hfr => exact absurd (hfirst j f c r hjf hfr) (Nat.not_le.2 hj)
    · simp

theorem sendingPlace_spec {heard : List (Option HeardEntry)} {i : Nat} (h : sendingPlace heard = some i) :
    ∃ e stored received, entryAt heard i = some e ∧ e.relay = .sending stored received := by
  obtain ⟨hlt, hi, -⟩ := List.findIdx?_eq_some_iff_getElem.1 h
  obtain ⟨e, he, hsend⟩ := (Option.any_eq_true _ _).1 hi
  split at hsend
  next stored received hr =>
    exact ⟨e, stored, received, entryAt_eq_some.2 (List.getElem?_eq_some_iff.2 ⟨hlt, he⟩), hr⟩
  · cases hsend

/-- At the Relay Engine a completed transmission settles the SENDING entry, if there is one (R56). -/
theorem State.completeRelay_cases {P : State → Prop} {cfg : Configuration} {s : State}
    (unsent : sendingPlace s.relay.heard = none → P (s.setAccess .lineBusy))
    (sent : ∀ i e stored received, entryAt s.relay.heard i = some e → e.relay = .sending stored received →
      P (((s.count .relayed).settlePlace cfg i { e with relay := .relayed }).setAccess .lineBusy)) :
    P (s.completeRelay cfg) := by
  unfold State.completeRelay
  split
  next hn => exact unsent hn
  next i hi =>
    obtain ⟨e, stored, received, he, hr⟩ := sendingPlace_spec hi
    rw [he]
    exact sent i e stored received he hr

/-! ## The places of the Heard Table -/

theorem State.settlePlace_heard (cfg : Configuration) (i : Nat) (e : HeardEntry) : (s.settlePlace cfg i e).relay =
    { s.relay with heard := s.relay.heard.set i (if e.forgotten cfg s.elapsed then none else some e) } := rfl

theorem HeardEntry.forgotten_iff (cfg : Configuration) (now : Nat) (e : HeardEntry) :
    e.forgotten cfg now = true ↔ e.firstHeard + 100 * cfg.heardMemory ≤ now := by
  simp [HeardEntry.forgotten]

theorem expired_iff (cfg : Configuration) (now : Nat) (slot : Option HeardEntry) : expired cfg now slot = true ↔
    ∃ e, slot = some e ∧ e.relay.settled = true ∧ e.firstHeard + 100 * cfg.heardMemory ≤ now := by
  simp [expired, Option.any_eq_true, HeardEntry.forgotten_iff]

theorem lookup_eq_none {heard : List (Option HeardEntry)} {origin : Byte} {serial : Word} :
    lookup heard origin serial = none ↔
      ∀ i e, entryAt heard i = some e → ¬ (e.origin = origin ∧ e.serial = serial) := by
  unfold lookup
  rw [List.findIdx?_eq_none_iff]
  constructor
  · intro h i e he hkey
    have := h _ (List.mem_of_getElem? (entryAt_eq_some.1 he))
    simp [HeardEntry.hasKey, hkey.1, hkey.2] at this
  · intro h slot hslot
    obtain ⟨i, hi⟩ := List.getElem?_of_mem hslot
    rw [Option.any_eq_false]
    rintro e rfl
    have := h i e (entryAt_eq_some.2 hi)
    simpa [HeardEntry.hasKey] using this

theorem lookup_spec {heard : List (Option HeardEntry)} {origin : Byte} {serial : Word} {i : Nat}
    (h : lookup heard origin serial = some i) :
    ∃ e, entryAt heard i = some e ∧ e.origin = origin ∧ e.serial = serial := by
  obtain ⟨hlt, hi, -⟩ := List.findIdx?_eq_some_iff_getElem.1 h
  obtain ⟨e, he, hkey⟩ := (Option.any_eq_true _ _).1 hi
  refine ⟨e, entryAt_eq_some.2 (List.getElem?_eq_some_iff.2 ⟨hlt, he⟩), ?_⟩
  simpa [HeardEntry.hasKey] using hkey

/-- The place a new entry takes is free or holds a settled entry (R43). -/
theorem placeFor_spec {heard : List (Option HeardEntry)} {i : Nat} (h : placeFor heard = some i) :
    i < heard.length ∧ ∀ e, entryAt heard i = some e → e.relay.settled = true := by
  unfold placeFor at h
  split at h
  next j hj =>
    cases h
    obtain ⟨hlt, hfree, -⟩ := List.findIdx?_eq_some_iff_getElem.1 hj
    refine ⟨hlt, fun e he => ?_⟩
    have hnone : heard[i] = none := by simpa using hfree
    simp [entryAt_eq_some, List.getElem?_eq_getElem hlt, hnone] at he
  next =>
    obtain ⟨⟨j, k⟩, hj, rfl⟩ := Option.map_eq_some_iff.1 h
    obtain ⟨⟨x, hx, hkey⟩, -⟩ := leastKeyed_spec _ _ hj
    refine ⟨(List.getElem?_eq_some_iff.1 hx).1, fun e he => ?_⟩
    obtain rfl : x = some e := by simpa [hx] using entryAt_eq_some.1 he
    by_contra hs
    simp [hs] at hkey

/-- The Relay Engine after an entry was opened, or found no place (R42 to R44). -/
def Relay.opened (cfg : Configuration) (copy : List Byte) (margin receptionEnd : Nat) (r : Relay) : Relay :=
  match placeFor r.heard with
  | none => r
  | some i =>
    let e := openedEntry cfg r.generator copy margin receptionEnd
    { r with heard := r.heard.set i (some e),
             generator := if e.relay = .noRelay then r.generator else r.drawOnce.generator }

theorem State.openEntry_relay (cfg : Configuration) (copy : List Byte) (margin receptionEnd : Nat) :
    (s.openEntry cfg copy margin receptionEnd).relay = s.relay.opened cfg copy margin receptionEnd := by
  unfold State.openEntry Relay.opened
  cases placeFor s.relay.heard with
  | none => rfl
  | some i =>
    dsimp only
    split_ifs <;> rfl

/-- Of the four actions of an acceptance one alone touches the Relay Engine (R30). -/
theorem State.accept_relay (cfg : Configuration) (copy : List Byte) (margin : Nat) :
    (s.accept cfg copy margin).relay = s.relay.opened cfg copy margin s.elapsed := by
  refine State.inSomeOrder_one State.relay (·.opened cfg copy margin s.elapsed) [_] _ _ ?_
    fun t => t.openEntry_relay cfg copy margin s.elapsed
  simp only [List.cons_append, List.nil_append, List.forall_mem_cons, List.not_mem_nil, false_implies, implies_true,
    and_true]
  exact ⟨fun t => t.recordAcceptance_frame copy .relay (by decide),
    fun t => t.restartSilence_frame cfg .relay (by decide), fun t => t.route_frame cfg copy .relay (by decide)⟩

/-- An echo of an entry suppresses it, or is written into it (R45 to R48). -/
theorem State.echo_cases {P : State → Prop} {cfg : Configuration} {i : Nat} {copy : List Byte} {receptionEnd : Nat}
    {s : State} {e : HeardEntry} (he : entryAt s.relay.heard i = some e)
    (suppressed : (e.hear copy receptionEnd).relay.isPending = true → cfg.suppression ≤ (e.hear copy receptionEnd).echoes →
      P (((s.count .echoes).count .suppressed).settlePlace cfg i
        { e.hear copy receptionEnd with relay := .suppressed }))
    (heard : ((e.hear copy receptionEnd).relay.isPending = true → (e.hear copy receptionEnd).echoes < cfg.suppression) →
      P ((s.count .echoes).writePlace i (some (e.hear copy receptionEnd)))) : P (s.echo cfg i copy receptionEnd) := by
  unfold State.echo
  rw [he]
  dsimp only
  split_ifs with h
  · obtain ⟨hpending, hle⟩ : (e.hear copy receptionEnd).relay.isPending = true ∧
      cfg.suppression ≤ (e.hear copy receptionEnd).echoes := by simpa using h
    exact suppressed hpending hle
  · refine heard fun hp => ?_
    simpa [hp] using h

end

end Sys2Proof.Machine
end

section
/-! PROOF. Every step keeps the Heard Table sound (R39, R42, R45 to R47, R54). -/

namespace Sys2Proof.Machine

/-! ## A table written at one place -/

theorem noKeyTwice_iff (heard : List (Option HeardEntry)) : noKeyTwice heard ↔
    ∀ i j e f, i < j → entryAt heard i = some e → entryAt heard j = some f →
      ¬ (e.origin = f.origin ∧ e.serial = f.serial) := by
  rw [noKeyTwice, List.Nodup, List.pairwise_filterMap, List.pairwise_iff_getElem]
  constructor
  · intro h i j e f hij he hf hkey
    obtain ⟨hi, hei⟩ := List.getElem?_eq_some_iff.1 (entryAt_eq_some.1 he)
    obtain ⟨hj, hfj⟩ := List.getElem?_eq_some_iff.1 (entryAt_eq_some.1 hf)
    exact h i j hi hj hij _ (by rw [hei]; rfl) _ (by rw [hfj]; rfl) (Prod.ext hkey.1 hkey.2)
  · intro h i j hi hj hij k hk k' hk'
    obtain ⟨e, he, rfl⟩ := Option.map_eq_some_iff.1 hk
    obtain ⟨f, hf, rfl⟩ := Option.map_eq_some_iff.1 hk'
    have hne := h i j e f hij (entryAt_eq_some.2 (List.getElem?_eq_some_iff.2 ⟨hi, he⟩))
      (entryAt_eq_some.2 (List.getElem?_eq_some_iff.2 ⟨hj, hf⟩))
    exact fun heq => hne (Prod.mk.inj heq)

/-- The table of a CONFIGURED part: 64 places, no key twice, sound entries. -/
def tableSound (cfg : Configuration) (heard : List (Option HeardEntry)) : Prop :=
  heard.length = Config.heardPlaces ∧ noKeyTwice heard ∧ ∀ slot ∈ heard, ∀ e ∈ slot, e.sound cfg

section
variable {cfg : Configuration} {heard : List (Option HeardEntry)} {i : Nat}

theorem tableSound.entry (h : tableSound cfg heard) {e : HeardEntry} (he : entryAt heard i = some e) : e.sound cfg :=
  h.2.2 _ (List.mem_of_getElem? (entryAt_eq_some.1 he)) e rfl

/-- A place written with nothing, or with a sound entry whose key no other place holds. -/
theorem tableSound.set {x : Option HeardEntry} (h : tableSound cfg heard) (hx : ∀ e ∈ x, e.sound cfg ∧
    ∀ j f, j ≠ i → entryAt heard j = some f → ¬ (f.origin = e.origin ∧ f.serial = e.serial)) :
    tableSound cfg (heard.set i x) := by
  obtain ⟨hlen, hkeys, hsound⟩ := h
  refine ⟨by rw [List.length_set, hlen], ?_, fun slot hslot e he => ?_⟩
  · rw [noKeyTwice_iff] at hkeys ⊢
    intro a b e f hab he hf hkey
    rw [entryAt_set] at he hf
    split_ifs at he hf with ha hb
    · exact hab.ne (ha.1.trans hb.1.symm)
    · exact (hx e (by simp [he])).2 b f (fun hb => hab.ne (ha.1.trans hb.symm)) hf ⟨hkey.1.symm, hkey.2.symm⟩
    · next hb => exact (hx f (by simp [hf])).2 a e (fun ha' => hab.ne (ha'.trans hb.1.symm)) he hkey
    · exact hkeys a b e f hab he hf hkey
  · obtain hslot | rfl := List.mem_or_eq_of_mem_set hslot
    exacts [hsound _ hslot e he, (hx e he).1]

theorem tableSound.set_none (h : tableSound cfg heard) : tableSound cfg (heard.set i none) :=
  h.set fun _ he => by cases he

/-- An entry rewritten under its key. -/
theorem tableSound.set_same {e e' : HeardEntry} (h : tableSound cfg heard) (he : entryAt heard i = some e)
    (hkey : e'.origin = e.origin ∧ e'.serial = e.serial) (hs : e'.sound cfg) :
    tableSound cfg (heard.set i (some e')) := by
  refine h.set fun f hf => ?_
  cases hf
  refine ⟨hs, fun j f hj hjf hsame => ?_⟩
  have hkeys := (noKeyTwice_iff heard).1 h.2.1
  rw [hkey.1, hkey.2] at hsame
  obtain hlt | hgt := Nat.lt_or_gt_of_ne hj
  · exact hkeys j i f e hlt hjf he hsame
  · exact hkeys i j e f hgt he hjf ⟨hsame.1.symm, hsame.2.symm⟩

theorem tableSound.settle {e e' : HeardEntry} (h : tableSound cfg heard) (he : entryAt heard i = some e)
    (hkey : e'.origin = e.origin ∧ e'.serial = e.serial) (hs : e'.sound cfg) (now : Nat) :
    tableSound cfg (heard.set i (if e'.forgotten cfg now then none else some e')) := by
  split_ifs
  exacts [h.set_none, h.set_same he hkey hs]

end

/-! ## The entries that are written -/

theorem storedCopy_fields {copy : List Byte} (h : copy.length = 32) :
    (storedCopy copy).length = 30 ∧ budgetOf (storedCopy copy) = budgetOf copy ∧
      originOf (storedCopy copy) = originOf copy ∧ serialOf (storedCopy copy) = serialOf copy := by
  have hbyte : ∀ i, i < 30 → byteAt (storedCopy copy) i = byteAt copy i := fun i hi => byteAt_take hi
  refine ⟨by simp [storedCopy, h], ?_, ?_, ?_⟩
  · rw [budgetOf, hbyte 4 (by decide), budgetOf]
  · rw [originOf, hbyte 1 (by decide), originOf]
  · rw [serialOf, wordAt, hbyte 2 (by decide), hbyte 3 (by decide), serialOf, wordAt]

section
variable {cfg : Configuration} {copy : List Byte} {heard : List (Option HeardEntry)} {receptionEnd : Nat}

/-- A copy with the entry's key and a budget is stored soundly. -/
theorem HeardEntry.storesSoundly_of_key {e : HeardEntry} (hlen : copy.length = 32) (hb : 1 ≤ budgetOf copy)
    (hkey : e.origin = originOf copy ∧ e.serial = serialOf copy) : e.storesSoundly (storedCopy copy) := by
  obtain ⟨hl, hbudget, horigin, hserial⟩ := storedCopy_fields hlen
  exact ⟨hl, hbudget ▸ hb, horigin.trans hkey.1.symm, hserial.trans hkey.2.symm⟩

theorem openedEntry_sound {g : Generator} {margin : Nat} (hlen : copy.length = 32) (hcfg : 1 ≤ cfg.suppression) :
    (openedEntry cfg g copy margin receptionEnd).sound cfg := by
  refine ⟨Nat.zero_le _, ?_⟩
  unfold openedEntry openedState
  dsimp only
  split_ifs with h
  · obtain ⟨-, hb⟩ : cfg.relayEnable = true ∧ 1 ≤ budgetOf copy := by simpa using h
    exact ⟨HeardEntry.storesSoundly_of_key hlen hb ⟨rfl, rfl⟩, hcfg⟩
  · trivial

theorem Relay.opened_sound {r : Relay} {margin : Nat} (h : tableSound cfg r.heard) (hcfg : 1 ≤ cfg.suppression)
    (hlen : copy.length = 32) (hnew : lookup r.heard (originOf copy) (serialOf copy) = none) :
    tableSound cfg (r.opened cfg copy margin receptionEnd).heard := by
  unfold Relay.opened
  split
  · exact h
  next i _ =>
    refine h.set fun e he => ?_
    cases he
    exact ⟨openedEntry_sound hlen hcfg, fun j f _ hf => lookup_eq_none.1 hnew j f hf⟩

/-- What an entry has heard of an echo with its key is sound but for the suppression that is due. -/
theorem HeardEntry.hear_sound {e : HeardEntry} (h : e.sound cfg) (hlen : copy.length = 32)
    (hkey : e.origin = originOf copy ∧ e.serial = serialOf copy)
    (hbelow : (e.hear copy receptionEnd).relay.isPending = true → (e.hear copy receptionEnd).echoes < cfg.suppression) :
    (e.hear copy receptionEnd).sound cfg := by
  obtain ⟨-, hstored⟩ := h
  refine ⟨Nat.min_le_left _ _, ?_⟩
  cases hr : e.relay with
  | pending stored received due =>
    rw [hr] at hstored
    have hhear : (e.hear copy receptionEnd).relay = if budgetOf stored < budgetOf copy then
        .pending (storedCopy copy) receptionEnd due else .pending stored received due := by
      rw [HeardEntry.hear, hr]
      rfl
    rw [hhear] at hbelow ⊢
    split_ifs at hbelow ⊢ with hb
    · exact ⟨HeardEntry.storesSoundly_of_key (e := e) hlen (by omega) hkey, hbelow rfl⟩
    · exact ⟨hstored.1, hbelow rfl⟩
  | sending stored received =>
    rw [hr] at hstored
    simp only [HeardEntry.hear, hr, RelayState.hearCopy]
    exact hstored
  | relayed => simp [HeardEntry.hear, hr, RelayState.hearCopy]
  | suppressed => simp [HeardEntry.hear, hr, RelayState.hearCopy]
  | noRelay => simp [HeardEntry.hear, hr, RelayState.hearCopy]

end

/-! ## The operations -/

/-- The Relay Engine of a CONFIGURED part, with no due tick to come taken as reached. -/
def State.relaysSoundly (cfg : Configuration) (s : State) : Prop :=
  tableSound cfg s.relay.heard ∧ s.relay.dueTo ≤ s.elapsed

section
variable {cfg : Configuration} {s : State}

theorem State.relaysSoundly_of_table {t : State} (ht : s.relay.sameTable t.relay) (he : t.elapsed = s.elapsed)
    (h : s.relaysSoundly cfg) : t.relaysSoundly cfg := by
  rw [State.relaysSoundly, ht.1, ht.2, he]
  exact h

theorem State.filter_relaysSoundly {copy : List Byte} {margin : Nat} (hcfg : 1 ≤ cfg.suppression)
    (hlen : copy.length = 32) (h : s.relaysSoundly cfg) : (s.filter cfg copy margin).relaysSoundly cfg := by
  obtain ⟨htable, hdue⟩ := h
  refine State.filter_cases (fun k => ⟨htable, hdue⟩) (fun i _ hi => ?_) fun ⟨_, hnew, _⟩ => ?_
  · obtain ⟨e, he, hkey⟩ := lookup_spec hi
    refine State.echo_cases he (fun _ _ => ⟨?_, hdue⟩) fun hbelow => ⟨?_, hdue⟩
    · exact htable.settle (e' := { e.hear copy s.elapsed with relay := .suppressed }) he ⟨rfl, rfl⟩
        ⟨Nat.min_le_left _ _, trivial⟩ _
    · exact htable.set_same he ⟨rfl, rfl⟩ (HeardEntry.hear_sound (htable.entry he) hlen hkey hbelow)
  · have helapsed := State.accept_frame cfg copy margin s .elapsed (by decide)
    refine ⟨?_, ?_⟩
    · rw [State.accept_relay]
      exact Relay.opened_sound htable hcfg hlen hnew
    · rw [State.accept_relay, (helapsed : _ = s.elapsed)]
      have hsame : (s.relay.opened cfg copy margin s.elapsed).dueTo = s.relay.dueTo := by
        unfold Relay.opened
        split <;> rfl
      rwa [hsame]

theorem State.offer_relaysSoundly (h : s.relaysSoundly cfg) : s.offer.relaysSoundly cfg := by
  obtain ⟨htable, hdue⟩ := id h
  refine State.offer_cases h (fun i e stored received due he hr _ _ => ⟨?_, hdue⟩) fun _ => h
  obtain ⟨hechoes, hstored⟩ := htable.entry he
  rw [hr] at hstored
  exact htable.set_same he ⟨rfl, rfl⟩ ⟨hechoes, hstored.1⟩

theorem State.completeRelay_relaysSoundly (h : s.relaysSoundly cfg) : (s.completeRelay cfg).relaysSoundly cfg := by
  obtain ⟨htable, hdue⟩ := id h
  refine State.completeRelay_cases (fun _ => h) fun i e stored received he _ => ⟨?_, hdue⟩
  exact htable.settle (e' := { e with relay := .relayed }) he ⟨rfl, rfl⟩ ⟨(htable.entry he).1, trivial⟩ _

end

/-! ## The commands -/

theorem State.heardSound_iff {s : State} {cfg : Configuration} (hl : s.loader.load = .configured cfg) :
    s.heardSound ↔ 1 ≤ cfg.suppression ∧ s.relaysSoundly cfg := by
  simp only [State.heardSound, hl, State.relaysSoundly, tableSound]
  tauto

theorem State.heardSound_of_same {s t : State} (hrelay : t.relay = s.relay) (hload : t.loader.load = s.loader.load)
    (helapsed : s.elapsed ≤ t.elapsed) (h : s.heardSound) : t.heardSound := by
  obtain ⟨hlen, hkeys, hdue, hrest⟩ := h
  rw [State.heardSound, hrelay, hload]
  exact ⟨hlen, hkeys, hdue.trans helapsed, hrest⟩

/-- An empty table is sound before any values are loaded (R40). -/
theorem State.heardSound_of_restart {s : State} (hl : s.loader.load = .loading) (hr : s.relay = .restart) :
    s.heardSound := by
  have hempty : ∀ slot ∈ List.replicate 64 (none : Option HeardEntry), slot = none :=
    fun _ hslot => List.eq_of_mem_replicate hslot
  rw [State.heardSound, hl, hr]
  refine ⟨List.length_replicate, ?_, Nat.zero_le _, hempty⟩
  rw [noKeyTwice_iff]
  intro i j e f _ he
  have := hempty _ (List.mem_of_getElem? (entryAt_eq_some.1 he))
  cases this

/-- The loaded values find an empty table, which is sound under any values. -/
theorem State.foundConfigured_heardSound {cfg : Configuration} {noise : Rat} {v : Bool} {s : State}
    (hcfg : 1 ≤ cfg.suppression) (hl : s.loader.load = .loading) (h : s.heardSound) :
    (s.foundConfigured cfg noise v).heardSound := by
  obtain ⟨hlen, hkeys, hdue, hrest⟩ := h
  rw [hl] at hrest
  have hsound : ∀ slot ∈ s.relay.heard, ∀ e ∈ slot, e.sound cfg := fun slot hslot e he => by
    rw [hrest slot hslot] at he
    cases he
  refine State.inSomeOrder_keeps (P := State.heardSound) ?_ ?_
  · have hframe : ∀ {ps : List Part} {t u : State}, t.keepsAllBut ps u → Part.relay ∉ ps → Part.loader ∉ ps →
        Part.elapsed ∉ ps → t.heardSound → u.heardSound := fun hf h1 h2 h3 =>
      State.heardSound_of_same (hf .relay h1) (congrArg Loader.load (hf .loader h2)) (hf .elapsed h3).ge
    simp only [List.forall_mem_cons, List.not_mem_nil, false_implies, implies_true, and_true]
    exact ⟨fun t => hframe (t.examineProgram_frame cfg) (by decide) (by decide) (by decide),
      fun t => hframe (t.placeChannels_frame cfg) (by decide) (by decide) (by decide),
      fun t => hframe (t.expireAndResolve_frame cfg) (by decide) (by decide) (by decide)⟩
  · exact ⟨hlen, hkeys, hdue, hcfg, hsound⟩

theorem State.after_heardSound {s : State} (i : Instr) (h : s.heardSound) : (s.after i).heardSound := by
  have hconfigured : ∀ f : Configuration → State, (∀ cfg, s.relaysSoundly cfg → 1 ≤ cfg.suppression →
      (f cfg).relaysSoundly cfg ∧ (f cfg).loader = s.loader) → (s.whenConfigured f).heardSound := fun f hf => by
    refine State.whenConfigured_cases h fun cfg hrun => ?_
    obtain ⟨hcfg, hr⟩ := (State.heardSound_iff hrun.2).1 h
    obtain ⟨hr', hl'⟩ := hf cfg hr hcfg
    exact (State.heardSound_iff ((congrArg Loader.load hl').trans hrun.2)).2 ⟨hcfg, hr'⟩
  have hframe : Part.relay ∉ i.touches → Part.loader ∉ i.touches → Part.elapsed ∉ i.touches →
      (s.after i).heardSound := fun h1 h2 h3 =>
    State.heardSound_of_same (s.after_same i h1) (congrArg Loader.load (s.after_same i h2)) (s.after_same i h3).ge h
  cases i
  case coldRestart =>
    rw [State.after_coldRestart]
    split_ifs
    exacts [State.heardSound_of_restart rfl rfl, h]
  case warmRestart =>
    rw [State.after_warmRestart]
    split_ifs
    exacts [State.heardSound_of_restart rfl rfl, h]
  case readAttemptEnd a noise v =>
    rw [State.after_readAttemptEnd]
    refine State.whenRunning_cases h fun _ => ?_
    split_ifs with hread
    · rw [Bool.and_eq_true] at hread
      obtain ⟨hreading, hcomplete⟩ := hread
      have hl := (s.loader.reading_iff.1 hreading).1
      refine State.judgeAttempt_cases (fun image => h) (fun image => ?_) fun image himage => ?_
      · have hf := State.foundUnconfigured_frame v (s.setLoader { s.loader with
          bus := attemptActions a, image := image })
        obtain ⟨hlen, hkeys, hdue, hrest⟩ := h
        rw [hl] at hrest
        rw [State.heardSound, State.foundUnconfigured_loader, (hf .relay (by decide) : _ = s.relay),
          (hf .elapsed (by decide) : _ = s.elapsed)]
        exact ⟨hlen, hkeys, hdue, hrest⟩
      · obtain ⟨-, ⟨hcfg, -⟩, -⟩ := configurationOf_inRange (attemptComplete_data hcomplete himage)
        exact State.foundConfigured_heardSound (s := s.setLoader _) hcfg hl h
    · exact h
  case readRetry =>
    rw [State.after_readRetry]
    refine State.whenRunning_cases h fun _ => ?_
    unfold State.retry
    split
    · split_ifs
      exacts [h, h]
    · exact h
  case startMark =>
    rw [State.after_startMark]
    refine hconfigured _ fun cfg hr _ => ⟨?_, State.hearStart_frame s .loader (by decide)⟩
    unfold State.hearStart
    split
    · exact State.relaysSoundly_of_table (State.turnBusy_sameTable (s.setLine _))
        (State.turnBusy_frame (s.setLine _) .elapsed (by decide)) hr
    · exact hr
    · exact hr
  case receptionEnd bytes levels =>
    rw [State.after_receptionEnd]
    refine hconfigured _ fun cfg hr hcfg => ⟨?_, State.receive_frame s cfg bytes levels .loader
      (by simp [Instr.touches])⟩
    refine State.receive_cases hr fun _ _ _ _ copy margin hlen => ?_
    exact State.filter_relaysSoundly (s := s.endReception) hcfg hlen hr
  case carrierAppears =>
    rw [State.after_carrierAppears]
    refine State.whenRunning_cases h fun _ => ?_
    unfold State.hearCarrier
    split
    next cfg hl =>
      obtain ⟨hcfg, hr⟩ := (State.heardSound_iff hl).1 h
      have hf := State.turnBusy_frame (s.setLine (s.line.hearCarrier s.elapsed))
      refine (State.heardSound_iff ((congrArg Loader.load (hf .loader (by decide))).trans hl)).2 ⟨hcfg, ?_⟩
      exact State.relaysSoundly_of_table (State.turnBusy_sameTable (s.setLine _)) (hf .elapsed (by decide)) hr
    · exact h
    · exact h
  case cleanTick level =>
    rw [State.after_cleanTick]
    refine State.whenRunning_cases h fun _ => State.cleanTick_cases h h fun cfg hl _ => ?_
    obtain ⟨hcfg, hr⟩ := (State.heardSound_iff hl).1 h
    have hf := State.turnQuiet_frame (s.moveNoise level)
    refine (State.heardSound_iff ((congrArg Loader.load (hf .loader (by decide))).trans hl)).2 ⟨hcfg, ?_⟩
    exact State.relaysSoundly_of_table (State.turnQuiet_sameTable (s.moveNoise level)) (hf .elapsed (by decide)) hr
  case entryFallsDue place =>
    have hfall : ∀ cfg, s.relaysSoundly cfg → s.fallDue.relaysSoundly cfg := fun cfg hr => ⟨hr.1, le_rfl⟩
    refine hconfigured _ fun cfg hr _ => ?_
    split_ifs
    exacts [⟨State.offer_relaysSoundly (hfall cfg hr), State.offer_frame _ .loader (by decide)⟩, ⟨hfall cfg hr, rfl⟩,
      ⟨hr, rfl⟩]
  case backoffEnd =>
    rw [State.after_backoffEnd]
    refine hconfigured _ fun cfg hr _ => ⟨?_, State.endBackoff_frame s .loader (by decide)⟩
    exact State.endBackoff_cases hr (fun _ _ => State.offer_relaysSoundly hr) fun _ _ => hr
  case transmissionCompletion =>
    rw [State.after_transmissionCompletion]
    refine hconfigured _ fun cfg hr _ => ⟨?_, State.endTransmission_frame s cfg .loader (by decide)⟩
    unfold State.endTransmission
    split
    · split_ifs
      exacts [State.completeRelay_relaysSoundly (s := s.setLine _) hr, hr]
    · exact hr
  case entryExpiry place =>
    refine hconfigured _ fun cfg hr _ => ?_
    split_ifs
    exacts [⟨⟨hr.1.set_none, hr.2⟩, rfl⟩, ⟨hr, rfl⟩]
  all_goals exact hframe (by simp [Instr.touches]) (by simp [Instr.touches]) (by simp [Instr.touches])

/-- Settles O54: the tables are written at one place at a time, each time under the entry's own key or a key that
is new to the table. -/
theorem tablesStaySound : Obligations.TablesStaySound :=
  ⟨fun _ _ => originsSound_kept, fun _ _ hs hstep =>
    step_keeps_of_reads (P := State.heardSound) [.relay, .loader, .elapsed]
      (fun _ _ hst => State.heardSound_of_same (hst .relay (by decide))
        (congrArg Loader.load (hst .loader (by decide))) (hst .elapsed (by decide)).ge)
      (by decide) (fun _ => State.heardSound_of_same rfl rfl (Nat.le_succ _))
      (fun i _ _ h => State.after_heardSound i h) hs hstep⟩

end Sys2Proof.Machine
end

section
/-! PROOF. Every step keeps the receiver, the slot, the indication, the access state and the SENDING entry in
agreement (R1, R2, R9, R10, R12, R13, R40, R50 to R53, R56). -/

namespace Sys2Proof.Machine

/-! ## How many entries are SENDING -/

/-- 1 where an entry at the place is SENDING. -/
def sendingIn (slot : Option HeardEntry) : Nat := if slot.any (·.relay.isSending) then 1 else 0

theorem sendingIn_some (e : HeardEntry) : sendingIn (some e) = if e.relay.isSending then 1 else 0 := rfl

theorem sendingCount_set {heard : List (Option HeardEntry)} {i : Nat} (x : Option HeardEntry) (hi : i < heard.length) :
    sendingCount (heard.set i x) + sendingIn (entryAt heard i) = sendingCount heard + sendingIn x := by
  have hget : entryAt heard i = heard[i] := List.getD_eq_getElem _ _ hi
  have hle : sendingIn heard[i] ≤ sendingCount heard := by
    unfold sendingIn sendingCount
    split_ifs with h
    exacts [List.countP_pos_iff.2 ⟨_, List.getElem_mem hi, h⟩, Nat.zero_le _]
  rw [hget, sendingCount, List.countP_set hi]
  change (sendingCount heard - sendingIn heard[i] + sendingIn x) + _ = _
  omega

/-- A place rewritten with as much SENDING in it as before. -/
theorem sendingCount_set_same {heard : List (Option HeardEntry)} {i : Nat} {x : Option HeardEntry}
    (h : sendingIn x = sendingIn (entryAt heard i)) : sendingCount (heard.set i x) = sendingCount heard := by
  by_cases hi : i < heard.length
  · have := sendingCount_set x hi
    omega
  · rw [List.set_eq_of_length_le (Nat.not_lt.1 hi)]

theorem sendingIn_eq_zero_of_settled {e : HeardEntry} (h : e.relay.settled = true) : sendingIn (some e) = 0 := by
  rw [sendingIn_some]
  cases hr : e.relay <;> simp_all [RelayState.settled, RelayState.isSending]

theorem sendingIn_ite_eq_zero {p : Prop} [Decidable p] {e : HeardEntry} (h : sendingIn (some e) = 0) :
    sendingIn (if p then none else some e) = 0 := by
  split_ifs
  exacts [rfl, h]

/-- With no SENDING entry found there is none to count. -/
theorem sendingPlace_none {heard : List (Option HeardEntry)} (h : sendingPlace heard = none) :
    sendingCount heard = 0 := by
  rw [sendingPlace, List.findIdx?_eq_none_iff] at h
  rw [sendingCount, List.countP_eq_zero]
  intro slot hslot hsend
  obtain ⟨e, rfl, he⟩ := (Option.any_eq_true _ _).1 hsend
  have := h _ hslot
  cases hr : e.relay with
  | sending stored received => simp [hr] at this
  | _ => simp [hr, RelayState.isSending] at he

/-! ## The line of a CONFIGURED part -/

/-- The receiver, the slot, the indication, the access state and the SENDING entry agree. -/
structure LineAgrees (l : Line) (r : Relay) : Prop where
  receiver : l.slot = .idle ↔ l.receiver ≠ .off
  access : l.slot = .idle ↔ r.access ≠ .transmitting
  sending : sendingCount r.heard = if l.slot = .idle then 0 else 1
  indication : r.access.onQuietLine = true ↔ l.indication = .quiet
  reception : l.receiver.busy = true → l.indication = .busy

theorem State.lineSound_iff_of_configured {s : State} {cfg : Configuration} (hl : s.loader.load = .configured cfg) :
    s.lineSound ↔ (s.running = true → LineAgrees s.line s.relay) := by
  simp only [State.lineSound, hl]
  exact forall_congr' fun _ => ⟨fun ⟨h1, h2, h3, h4, h5⟩ => ⟨h1, h2, h3, h4, h5⟩,
    fun ⟨h1, h2, h3, h4, h5⟩ => ⟨h1, h2, h3, h4, h5⟩⟩

theorem Access.ne_transmitting_of_onQuietLine {a : Access} (h : a.onQuietLine = true) : a ≠ .transmitting := by
  rintro rfl
  cases h

theorem Indication.eq_busy_of_ne {x : Indication} (h : x ≠ .quiet) : x = .busy := by
  cases x with
  | busy => rfl
  | quiet => exact absurd rfl h

namespace LineAgrees
variable {l : Line} {r : Relay} {s : State}

theorem busy_of_sending (h : LineAgrees l r) (hs : l.slot ≠ .idle) : l.indication = .busy := by
  have ha : r.access = .transmitting := by
    by_contra hne
    exact hs (h.access.2 hne)
  refine Indication.eq_busy_of_ne fun hq => ?_
  exact Access.ne_transmitting_of_onQuietLine (h.indication.2 hq) ha

/-- The Heard Table may change where as many entries are SENDING as before. -/
theorem table {r' : Relay} (h : LineAgrees l r) (ha : r'.access = r.access)
    (hs : sendingCount r'.heard = sendingCount r.heard) : LineAgrees l r' where
  receiver := h.receiver
  access := ha ▸ h.access
  sending := hs ▸ h.sending
  indication := ha ▸ h.indication
  reception := h.reception

/-- What a line does not keep in agreement may change. -/
theorem levels {l' : Line} (h : LineAgrees l r) (hr : l'.receiver = l.receiver) (hs : l'.slot = l.slot)
    (hi : l'.indication = l.indication) : LineAgrees l' r where
  receiver := hr ▸ hs ▸ h.receiver
  access := hs ▸ h.access
  sending := hs ▸ h.sending
  indication := hi ▸ h.indication
  reception := by rw [hr, hi]; exact h.reception

/-- A line that turns BUSY, whatever a listening or receiving receiver becomes but OFF. -/
theorem turnBusy {x : Receiver} (h : LineAgrees s.line s.relay)
    (hx : x = .off ↔ s.line.receiver = .off) (t : State) (ht : t = s.setLine { s.line with receiver := x }) :
    LineAgrees t.turnBusy.line t.turnBusy.relay := by
  subst ht
  rw [State.turnBusy_line, State.turnBusy_relay]
  have hrelay : LineAgrees { s.line with receiver := x, indication := .busy }
      { s.relay with access := s.relay.access.busied } :=
    { receiver := h.receiver.trans (not_congr hx.symm)
      access := h.access.trans (not_congr s.relay.access.busied_eq_transmitting_iff.symm)
      sending := h.sending
      indication := by simp [Access.busied_onQuietLine]
      reception := fun _ => rfl }
  split_ifs with hq
  · exact hrelay
  · have hb : s.line.indication = .busy := Indication.eq_busy_of_ne hq
    exact { receiver := hrelay.receiver, access := h.access, sending := h.sending, reception := fun _ => rfl,
            indication := by
              show s.relay.access.onQuietLine = true ↔ _
              rw [h.indication, hb] }

/-- A line that is not taken turns QUIET. -/
theorem turnQuiet (h : LineAgrees s.line s.relay) (hslot : s.line.slot = .idle) (hreceiver : s.line.receiver.busy = false) :
    LineAgrees s.turnQuiet.line s.turnQuiet.relay := by
  have hne : s.relay.access ≠ .transmitting := h.access.1 hslot
  have hquiet : ∀ (a : Access) (g : Generator), a.onQuietLine = true →
      LineAgrees { s.line with indication := .quiet } { s.relay with access := a, generator := g } := fun a g ha =>
    { receiver := h.receiver
      access := ⟨fun _ => Access.ne_transmitting_of_onQuietLine ha, fun _ => hslot⟩
      sending := h.sending
      indication := by simp [ha]
      reception := fun hb => by
        have hb : s.line.receiver.busy = true := hb
        simp [hreceiver] at hb }
  rw [State.turnQuiet_line]
  by_cases hq : s.line.indication = .quiet
  · rw [State.turnQuiet_relay_of_not_waiting s (.inl hq)]
    exact hquiet s.relay.access s.relay.generator (h.indication.2 hq)
  · have hb : s.line.indication = .busy := Indication.eq_busy_of_ne hq
    have ha : s.relay.access = .lineBusy := by
      have hnot : s.relay.access.onQuietLine ≠ true := fun hon => hq (h.indication.1 hon)
      revert hne hnot
      cases s.relay.access <;> simp [Access.onQuietLine]
    by_cases hd : s.someEntryDue
    · rw [State.turnQuiet_relay_of_due s hb ha hd]
      exact hquiet _ _ rfl
    · rw [State.turnQuiet_relay_of_none_due s hb ha hd]
      exact hquiet .lineQuiet s.relay.generator rfl

/-- An offer from a QUIET line is taken, and starts a transmission (R53). -/
theorem offer (h : LineAgrees s.line s.relay) (hq : s.relay.access.onQuietLine = true) :
    LineAgrees s.offer.line s.offer.relay := by
  have hidle : s.line.slot = .idle := h.access.2 (Access.ne_transmitting_of_onQuietLine hq)
  have hquiet := h.indication.1 hq
  refine State.offer_cases (P := fun t => LineAgrees t.line t.relay) h (fun i e stored received due he hr _ _ => ?_)
    fun hrefused => absurd ⟨hidle, hquiet⟩ hrefused
  have hcount := sendingCount_set (some { e with relay := .sending stored received }) (entryAt_lt he)
  rw [he, sendingIn_some, sendingIn_some, hr, h.sending, if_pos hidle] at hcount
  refine ⟨?_, ?_, ?_, ?_, ?_⟩
  · simp [State.transmit, State.setAccess, State.writePlace]
  · simp [State.transmit, State.setAccess, State.writePlace]
  · simpa [State.transmit, State.setAccess, State.writePlace, RelayState.isSending] using hcount
  · simp [State.transmit, State.setAccess, State.writePlace, Access.onQuietLine]
  · simp [State.transmit, State.setAccess, State.writePlace, Receiver.busy]

/-- The access state of a QUIET line may become LINE_QUIET. -/
theorem lineQuiet (h : LineAgrees l r) (hq : r.access.onQuietLine = true) :
    LineAgrees l { r with access := .lineQuiet } where
  receiver := h.receiver
  access := ⟨fun _ => by simp, fun _ => h.access.2 (Access.ne_transmitting_of_onQuietLine hq)⟩
  sending := h.sending
  indication := ⟨fun _ => h.indication.1 hq, fun _ => rfl⟩
  reception := h.reception

/-- A reception that ends leaves the receiver LISTENING. -/
theorem listening (h : LineAgrees l r) (hr : l.receiver.busy = true) (n : Nat) :
    LineAgrees { l with receiver := .listening, cleanFrom := n } r where
  receiver := by
    have hne : l.receiver ≠ .off := fun ho => by rw [ho] at hr; cases hr
    exact h.receiver.trans (by simp [hne])
  access := h.access
  sending := h.sending
  indication := h.indication
  reception hb := by cases hb

/-- A completed transmission frees the slot and settles its entry (R13, R56). -/
theorem completeRelay {cfg : Configuration} (h : LineAgrees l s.relay) (hs : l.slot ≠ .idle) (n : Nat)
    (hl : s.line = { l with slot := .idle, receiver := .listening, cleanFrom := n }) :
    LineAgrees (s.completeRelay cfg).line (s.completeRelay cfg).relay := by
  have hsent : ∀ t : State, t.line = s.line → sendingCount t.relay.heard = 0 → t.relay.access = .lineBusy →
      LineAgrees t.line t.relay := fun t ht hcount ha => by
    rw [ht, hl]
    exact { receiver := by simp, access := by simp [ha], sending := hcount,
            indication := by simp [ha, Access.onQuietLine, h.busy_of_sending hs], reception := fun hb => by cases hb }
  have hone : sendingCount s.relay.heard = 1 := by rw [h.sending, if_neg hs]
  refine State.completeRelay_cases (P := fun t => LineAgrees t.line t.relay) (fun hnone => ?_)
    fun i e stored received he hr => hsent _ rfl ?_ rfl
  · exact absurd (sendingPlace_none hnone) (by rw [hone]; decide)
  · have hcount := sendingCount_set (if (HeardEntry.forgotten cfg s.elapsed { e with relay := .relayed }) then none
      else some { e with relay := .relayed }) (entryAt_lt he)
    rw [he, sendingIn_some, hr, hone, sendingIn_ite_eq_zero rfl] at hcount
    exact Nat.succ.inj hcount

theorem opened {cfg : Configuration} {copy : List Byte} {margin receptionEnd : Nat} (h : LineAgrees l r) :
    LineAgrees l (r.opened cfg copy margin receptionEnd) := by
  unfold Relay.opened
  split
  · exact h
  next i hi =>
    obtain ⟨hlt, hsettled⟩ := placeFor_spec hi
    refine h.table rfl (sendingCount_set_same ?_)
    have hold : sendingIn (entryAt r.heard i) = 0 := by
      cases he : entryAt r.heard i with
      | none => rfl
      | some e => exact sendingIn_eq_zero_of_settled (hsettled e he)
    rw [hold, sendingIn_some]
    unfold openedEntry openedState
    split_ifs <;> simp_all [RelayState.isSending]

/-- No copy at the filter changes what agrees. -/
theorem filter {cfg : Configuration} {copy : List Byte} {margin : Nat} (h : LineAgrees s.line s.relay) :
    LineAgrees (s.filter cfg copy margin).line (s.filter cfg copy margin).relay := by
  refine State.filter_cases (P := fun t => LineAgrees t.line t.relay) (fun k => h) (fun i _ hi => ?_) fun _ => ?_
  · obtain ⟨e, he, -⟩ := lookup_spec hi
    have hhear : sendingIn (some (e.hear copy s.elapsed)) = sendingIn (entryAt s.relay.heard i) := by
      rw [he, sendingIn_some, sendingIn_some, HeardEntry.hear]
      cases e.relay with
      | pending stored received due =>
        unfold RelayState.hearCopy
        dsimp only
        split_ifs <;> simp_all [RelayState.isSending]
      | _ => rfl
    refine State.echo_cases (P := fun t => LineAgrees t.line t.relay) he (fun hpending _ => ?_) fun _ => ?_
    · refine h.table rfl (sendingCount_set_same ?_)
      rw [sendingIn_ite_eq_zero rfl]
      change 0 = sendingIn (entryAt s.relay.heard i)
      rw [← hhear, sendingIn_some]
      cases hr : (e.hear copy s.elapsed).relay <;> simp_all [RelayState.isPending, RelayState.isSending]
    · exact h.table rfl (sendingCount_set_same hhear)
  · rw [State.accept_relay, (State.accept_frame cfg copy margin s .line (by decide) : _ = s.line)]
    exact h.opened

end LineAgrees

/-! ## The commands -/

theorem State.lineSound_of_same {s t : State} (hrun : t.running = s.running) (hload : t.loader.load = s.loader.load)
    (hline : t.line = s.line) (hrelay : t.relay = s.relay) (h : s.lineSound) : t.lineSound := by
  rw [State.lineSound, hrun, hload, hline, hrelay]
  exact h

theorem State.lineSound_of_stopped {s : State} (h : s.running = false) : s.lineSound := fun hrun => by
  simp [h] at hrun

theorem State.lineSound_of_restart {s : State} (hl : s.loader.load = .loading) (hline : s.line = .restart)
    (hrelay : s.relay = .restart) : s.lineSound := fun _ => by
  rw [hl, hline, hrelay]
  exact ⟨rfl, rfl, rfl, rfl, by decide⟩

theorem State.foundConfigured_lineSound {cfg : Configuration} {noise : Rat} {v : Bool} {s : State}
    (hrun : s.running = true) (hl : s.loader.load = .loading) (h : s.lineSound) :
    (s.foundConfigured cfg noise v).lineSound := by
  have hsound := h hrun
  simp only [hl] at hsound
  obtain ⟨-, hslot, hbusy, haccess, hcount⟩ := hsound
  refine State.inSomeOrder_keeps (P := State.lineSound) ?_ ?_
  · have hframe : ∀ {ps : List Part} {t u : State}, t.keepsAllBut ps u →
        (∀ p ∈ [Part.power, .loader, .line, .relay], p ∉ ps) → t.lineSound → u.lineSound := fun {ps t u} hf hps => by
      have hpower : u.power = t.power := hf .power (hps _ (by decide))
      exact State.lineSound_of_same (by rw [State.running, hpower, State.running])
        (congrArg Loader.load (hf .loader (hps _ (by decide)))) (hf .line (hps _ (by decide)))
        (hf .relay (hps _ (by decide)))
    simp only [List.forall_mem_cons, List.not_mem_nil, false_implies, implies_true, and_true]
    exact ⟨fun t => hframe (t.examineProgram_frame cfg) (by decide),
      fun t => hframe (t.placeChannels_frame cfg) (by decide),
      fun t => hframe (t.expireAndResolve_frame cfg) (by decide)⟩
  · refine (State.lineSound_iff_of_configured rfl).2 fun _ => ?_
    exact { receiver := by simp [hslot, State.endLoading, State.noteChange]
            access := by simp [hslot, haccess, State.endLoading, State.noteChange]
            sending := by simpa [hslot, State.endLoading, State.noteChange] using hcount
            indication := by simp [hbusy, haccess, Access.onQuietLine, State.endLoading, State.noteChange]
            reception := fun hb => by cases hb }

theorem State.after_lineSound {s : State} (i : Instr) (h : s.lineSound) : (s.after i).lineSound := by
  have hconfigured : ∀ f : Configuration → State, (∀ cfg, s.running = true → LineAgrees s.line s.relay →
      LineAgrees (f cfg).line (f cfg).relay ∧ (f cfg).loader = s.loader) → (s.whenConfigured f).lineSound := fun f hf => by
    refine State.whenConfigured_cases h fun cfg ⟨hrun, hl⟩ => ?_
    obtain ⟨hr', hl'⟩ := hf cfg hrun ((State.lineSound_iff_of_configured hl).1 h hrun)
    exact (State.lineSound_iff_of_configured ((congrArg Loader.load hl').trans hl)).2 fun _ => hr'
  have hframe : (∀ p ∈ [Part.power, .loader, .line, .relay], p ∉ i.touches) → (s.after i).lineSound := fun hps => by
    have hpower : (s.after i).power = s.power := s.after_same i (hps .power (by decide))
    exact State.lineSound_of_same (by rw [State.running, hpower, State.running])
      (congrArg Loader.load (s.after_same i (hps .loader (by decide)))) (s.after_same i (hps .line (by decide)))
      (s.after_same i (hps .relay (by decide))) h
  cases i
  case coldRestart =>
    rw [State.after_coldRestart]
    split_ifs
    exacts [State.lineSound_of_restart rfl rfl rfl, h]
  case warmRestart =>
    rw [State.after_warmRestart]
    split_ifs
    exacts [State.lineSound_of_restart rfl rfl rfl, h]
  case supplyFailure =>
    rw [State.after_supplyFailure]
    split_ifs
    exacts [State.lineSound_of_stopped rfl, State.lineSound_of_stopped rfl, h]
  case nresetAsserted =>
    exact State.lineSound_of_stopped (by simp [State.running, State.cutOff, State.clearRetained])
  case vholdLoss =>
    rw [State.after_vholdLoss]
    split_ifs
    exacts [h, h]
  case retainedClockTick =>
    rw [State.after_retainedClockTick]
    split_ifs
    exacts [h, h]
  case readAttemptEnd a noise v =>
    rw [State.after_readAttemptEnd]
    refine State.whenRunning_cases h fun hrun => ?_
    split_ifs with hread
    · rw [Bool.and_eq_true] at hread
      have hl := (s.loader.reading_iff.1 hread.1).1
      refine State.judgeAttempt_cases (fun image => h) (fun image => fun _ => ?_) fun image _ =>
        State.foundConfigured_lineSound (s := s.setLoader _) hrun hl h
      have hf := State.foundUnconfigured_frame v (s.setLoader { s.loader with bus := attemptActions a, image := image })
      have hsound := h hrun
      rw [State.foundUnconfigured_loader, (hf .relay (by decide) : _ = s.relay), (hf .line (by decide) : _ = s.line)]
      simp only [hl] at hsound
      exact hsound
    · exact h
  case readRetry =>
    rw [State.after_readRetry]
    refine State.whenRunning_cases h fun _ => ?_
    unfold State.retry
    split
    · split_ifs
      exacts [h, h]
    · exact h
  case startMark =>
    rw [State.after_startMark]
    refine hconfigured _ fun cfg _ ha => ⟨?_, State.hearStart_frame s .loader (by decide)⟩
    unfold State.hearStart
    split
    next hr => exact ha.turnBusy (by simp [hr]) _ rfl
    · exact ha
    · exact ha
  case receptionEnd bytes levels =>
    rw [State.after_receptionEnd]
    refine hconfigured _ fun cfg _ ha => ⟨?_, State.receive_frame s cfg bytes levels .loader (by simp [Instr.touches])⟩
    refine State.receive_cases (P := fun t => LineAgrees t.line t.relay) ha fun _ _ _ hr copy margin _ => ?_
    exact LineAgrees.filter (s := s.endReception) (ha.listening (by rw [hr]; rfl) _)
  case truncatedFrame =>
    rw [State.after_truncatedFrame]
    refine hconfigured _ fun cfg _ ha => ⟨?_, State.truncate_frame s .loader (by decide)⟩
    unfold State.truncate
    split
    next hr =>
      split_ifs
      exacts [ha.listening (by rw [hr]; rfl) _, ha]
    · exact ha
    · exact ha
  case carrierAppears =>
    rw [State.after_carrierAppears]
    refine State.whenRunning_cases h fun hrun => ?_
    unfold State.hearCarrier
    split
    next cfg hl =>
      have ha := (State.lineSound_iff_of_configured hl).1 h hrun
      have hf := State.turnBusy_frame (s.setLine (s.line.hearCarrier s.elapsed))
      refine (State.lineSound_iff_of_configured ((congrArg Loader.load (hf .loader (by decide))).trans hl)).2 fun _ => ?_
      exact LineAgrees.turnBusy (s := s.setLine (s.line.hearCarrier s.elapsed)) (x := s.line.receiver)
        (ha.levels rfl rfl rfl) Iff.rfl _ rfl
    · exact h
    · exact h
  case cleanTick level =>
    rw [State.after_cleanTick]
    refine State.whenRunning_cases h fun hrun => State.cleanTick_cases h h fun cfg hl hfree => ?_
    have ha := (State.lineSound_iff_of_configured hl).1 h hrun
    have hf := State.turnQuiet_frame (s.moveNoise level)
    refine (State.lineSound_iff_of_configured ((congrArg Loader.load (hf .loader (by decide))).trans hl)).2 fun _ => ?_
    obtain ⟨⟨-, hreceiver⟩, hslot⟩ : (_ ∧ s.line.receiver.busy = false) ∧ s.line.slot = .idle := by
      simpa [Line.taken] using hfree
    exact LineAgrees.turnQuiet (s := s.moveNoise level) (ha.levels rfl rfl rfl) hslot hreceiver
  case entryFallsDue place =>
    refine hconfigured _ fun cfg _ ha => ?_
    have hfall : LineAgrees s.fallDue.line s.fallDue.relay := ha.table rfl rfl
    split_ifs with _ hq
    · exact ⟨hfall.offer (by show s.relay.access.onQuietLine = true; rw [hq]; rfl),
        State.offer_frame s.fallDue .loader (by decide)⟩
    · exact ⟨hfall, rfl⟩
    · exact ⟨ha, rfl⟩
  case backoffEnd =>
    rw [State.after_backoffEnd]
    refine hconfigured _ fun cfg _ ha => ⟨?_, State.endBackoff_frame s .loader (by decide)⟩
    refine State.endBackoff_cases (P := fun t => LineAgrees t.line t.relay) ha (fun _ hb => ha.offer ?_)
      fun _ hb => ha.lineQuiet ?_
    all_goals rw [hb]; rfl
  case transmissionCompletion =>
    rw [State.after_transmissionCompletion]
    refine hconfigured _ fun cfg _ ha => ⟨?_, State.endTransmission_frame s cfg .loader (by decide)⟩
    unfold State.endTransmission
    split
    next hs =>
      split_ifs
      exacts [LineAgrees.completeRelay (s := s.setLine _) ha (by simp [hs]) _ rfl, ha]
    · exact ha
  case entryExpiry place =>
    refine hconfigured _ fun cfg _ ha => ?_
    split_ifs with hexpired
    · obtain ⟨e, he, hsettled, -⟩ := (expired_iff _ _ _).1 hexpired
      refine ⟨ha.table rfl (sendingCount_set_same ?_), rfl⟩
      rw [he, sendingIn_eq_zero_of_settled hsettled]
      rfl
    · exact ⟨ha, rfl⟩
  all_goals exact hframe (by simp [Instr.touches])

/-- Settles O55: in a CONFIGURED part each event of the line and of the Relay Engine keeps the agreement
(`LineAgrees`), and loading leaves the line at rest. -/
theorem lineStaysInStep : Obligations.LineStaysInStep := fun _ _ hs hstep =>
  step_keeps_of_reads (P := State.lineSound) [.power, .loader, .line, .relay]
    (fun s t hst => by
      have hpower : t.power = s.power := hst .power (by decide)
      exact State.lineSound_of_same (by rw [State.running, hpower, State.running])
        (congrArg Loader.load (hst .loader (by decide))) (hst .line (by decide)) (hst .relay (by decide)))
    (by decide) (fun _ h => h) (fun i _ _ h => State.after_lineSound i h) hs hstep

end Sys2Proof.Machine
end

section
/-! PROOF. What the operations of the Fallback Monitor make of its station part, said once (sections 8.1 and 8.2). -/

namespace Sys2Proof.Machine

/-! ## Sets of conditions -/

theorem Conditions.get_set (v : Conditions) (k j : Condition) (x : Bool) :
    (v.set k x).get j = if j = k then x else v.get j := by
  cases k <;> cases j <;> rfl

theorem Conditions.set_get (v : Conditions) (k : Condition) : v.set k (v.get k) = v := by
  cases k <;> rfl

/-! ## The monitor after an operation -/

section
variable (cfg : Configuration) (s : State)

/-- A condition given by its cause is written, whatever it was (R154). -/
theorem State.setCondition_monitor (k : Condition) (x : Bool) : (s.setCondition cfg k x).monitor =
    { s.monitor with conditions := s.monitor.conditions.set k x } := by
  unfold State.setCondition
  split_ifs with h
  · rw [← h, Conditions.set_get]
  · rw [State.onEachChannel_monitor]
    rfl

theorem State.setCondition_eq_self {k : Condition} {x : Bool} (h : s.monitor.conditions.get k = x) :
    s.setCondition cfg k x = s := if_pos h

theorem State.reportTimeInvalid_monitor : (s.reportTimeInvalid cfg).monitor =
    { s.monitor with conditions := { s.monitor.conditions with timeInvalid := !s.time.state.valid } } :=
  s.setCondition_monitor cfg _ _

theorem State.reportProgram_monitor : (s.reportProgram cfg).monitor =
    { s.monitor with conditions := { s.monitor.conditions with noProgram := s.programs.active.isNone } } :=
  s.setCondition_monitor cfg _ _

theorem State.reportStep_monitor : (s.reportStep cfg).monitor =
    { s.monitor with conditions := { s.monitor.conditions with timeStep := true }, stepHold := 300, stepHoldSet := true } :=
  State.setCondition_monitor cfg _ _ _

theorem State.restartSilence_monitor : (s.restartSilence cfg).monitor =
    { s.monitor with conditions := { s.monitor.conditions with silence := false }, silence := cfg.silenceStart } :=
  State.setCondition_monitor cfg _ _ _

/-- An activation clears NO_PROGRAM, in whichever order its two events come (R96, R149). -/
theorem State.activate_monitor (awaited : List Moment) (p : Program) : (s.activate cfg awaited p).monitor =
    { s.monitor with conditions := { s.monitor.conditions with noProgram := false } } := by
  have h := State.inSomeOrder_one
    (s := (s.setPrograms { s.programs with active := some p, next := none }).noteChange)
    (fun t => (t.programs, t.monitor))
    (fun v => (v.1, { v.2 with conditions := { v.2.conditions with noProgram := v.1.active.isNone } }))
    [State.resolveAwaiting cfg awaited] [] (State.reportProgram cfg)
    (by
      simp only [List.append_nil, List.forall_mem_cons, List.not_mem_nil, false_implies, implies_true, and_true]
      exact fun t => Prod.ext (t.resolveAwaiting_frame cfg awaited .programs (by decide))
        (t.resolveAwaiting_frame cfg awaited .monitor (by decide)))
    (fun t => Prod.ext (t.reportProgram_frame cfg .programs (by decide)) (t.reportProgram_monitor cfg))
  exact congrArg Prod.snd h

/-- An examination clears NO_PROGRAM where it activates the pending program (R95, R96). -/
theorem State.examineAwaiting_monitor (awaited : List Moment) : (s.examineAwaiting cfg awaited).monitor = s.monitor ∨
    (s.examineAwaiting cfg awaited).monitor =
        { s.monitor with conditions := { s.monitor.conditions with noProgram := false } } ∧
      (s.examineAwaiting cfg awaited).programs.active.isNone = false := by
  unfold State.examineAwaiting
  split
  next p _ =>
    split_ifs
    · refine .inr ⟨s.activate_monitor cfg awaited p, ?_⟩
      rw [State.activate_programs]
      rfl
    · exact .inl rfl
  · exact .inl rfl

theorem Configuration.silenceStart_ne_zero : cfg.silenceStart ≠ some 0 := by
  unfold Configuration.silenceStart
  split_ifs with h
  · simp
  · simp only [ne_eq, Option.some.injEq]
    omega

end

end Sys2Proof.Machine
end

section
/-! PROOF. Every step keeps the station conditions in agreement with what they name (R147 to R151). -/

namespace Sys2Proof.Machine

/-! ## What the conditions show -/

/-- SILENCE, TIME_STEP and NO_PROGRAM stand for what they name; and TIME_INVALID too, unless a change of time state is
still to be reported to the monitor. -/
def State.shown (timely : Bool) (s : State) : Prop :=
  s.monitor.countdownsShow ∧ s.monitor.conditions.noProgram = s.programs.active.isNone ∧
    (timely = true → s.monitor.conditions.timeInvalid = !s.time.state.valid)

section
variable {timely : Bool} {cfg : Configuration} {s : State}

theorem State.shown_of_same {t : State} (hm : t.monitor = s.monitor) (hp : t.programs.active = s.programs.active)
    (ht : t.time.state = s.time.state) (h : s.shown timely) : t.shown timely := by
  rw [State.shown, hm, hp, ht]
  exact h

theorem State.shown_of_frame {ps : List Part} {t : State} (hf : s.keepsAllBut ps t)
    (hps : ∀ p ∈ [Part.monitor, .programs, .time], p ∉ ps) (h : s.shown timely) : t.shown timely :=
  State.shown_of_same (hf .monitor (hps _ (by decide)))
    (congrArg Collector.active (hf .programs (hps _ (by decide)))) (congrArg Timekeeper.state (hf .time (hps _ (by decide)))) h

/-- A monitor changed by what it shows, the rest of the state standing. -/
theorem State.shown_of_monitor {ps : List Part} {t : State} {m : Monitor} (hf : s.keepsAllBut ps t)
    (hps : ∀ p ∈ [Part.programs, .time], p ∉ ps) (hm : t.monitor = m) (h : (s.setMonitor m).shown timely) :
    t.shown timely :=
  State.shown_of_same (s := s.setMonitor m) hm (congrArg Collector.active (hf .programs (hps _ (by decide))))
    (congrArg Timekeeper.state (hf .time (hps _ (by decide)))) h

/-! ## The monitor's own events -/

theorem State.reportTimeInvalid_shown (h : s.shown false) : (s.reportTimeInvalid cfg).shown true :=
  State.shown_of_monitor (s.reportTimeInvalid_frame cfg) (by decide) (s.reportTimeInvalid_monitor cfg)
    ⟨h.1, h.2.1, fun _ => rfl⟩

theorem State.reportStep_shown (h : s.shown timely) : (s.reportStep cfg).shown timely :=
  State.shown_of_monitor (s.reportStep_frame cfg) (by decide) (s.reportStep_monitor cfg)
    ⟨⟨h.1.1, by simp⟩, h.2⟩

theorem State.restartSilence_shown (h : s.shown timely) : (s.restartSilence cfg).shown timely :=
  State.shown_of_monitor (s.restartSilence_frame cfg) (by decide) (s.restartSilence_monitor cfg)
    ⟨⟨by simp [cfg.silenceStart_ne_zero], h.1.2⟩, h.2⟩

theorem State.setMainsFreq_shown {x : Bool} (h : s.shown timely) : (s.setCondition cfg .mainsFreq x).shown timely :=
  State.shown_of_monitor (s.setCondition_frame cfg _ x) (by decide) (s.setCondition_monitor cfg _ x) h

theorem State.silenceTick_shown (h : s.shown timely) : (s.silenceTick cfg).shown timely := by
  have hf := s.silenceTick_frame cfg
  obtain ⟨⟨hsilence, hstep⟩, hrest⟩ := id h
  unfold State.silenceTick at hf ⊢
  split
  · exact h
  next n hn =>
    rw [hn] at hsilence hf
    dsimp only at hf
    split_ifs with h0 h1
    · exact h
    · rw [if_neg h0, if_pos h1] at hf
      refine State.shown_of_monitor hf (by decide) (State.setCondition_monitor cfg _ _ _) ⟨⟨?_, hstep⟩, hrest⟩
      simp [Conditions.set]
    · have hoff : s.monitor.conditions.silence = false := by
        rw [← Bool.not_eq_true, hsilence]
        simpa using h0
      refine ⟨⟨?_, hstep⟩, hrest⟩
      show s.monitor.conditions.silence = true ↔ some (n - 1) = some 0
      simp only [hoff, Option.some.injEq, Bool.false_eq_true, false_iff]
      omega

theorem State.stepHoldTick_shown (h : s.shown timely) : (s.stepHoldTick cfg).shown timely := by
  have hf := s.stepHoldTick_frame cfg
  obtain ⟨⟨hsilence, hstep⟩, hrest⟩ := id h
  unfold State.stepHoldTick at hf ⊢
  split_ifs with h0 h1
  · exact h
  · rw [if_neg h0, if_pos h1] at hf
    refine State.shown_of_monitor hf (by decide) (State.setCondition_monitor cfg _ _ _) ⟨⟨hsilence, ?_⟩, hrest⟩
    simp [Conditions.set]
  · have hpos : 1 < s.monitor.stepHold := by
      have : ¬ (s.monitor.stepHold = 0) := fun h => h0 (by simp [h])
      omega
    refine ⟨⟨hsilence, ?_⟩, hrest⟩
    show s.monitor.conditions.timeStep = true ↔ 0 < s.monitor.stepHold - 1
    rw [hstep]
    omega

/-! ## The events of the other blocks -/

theorem State.examineAwaiting_shown {awaited : List Moment} (h : s.shown timely) :
    (s.examineAwaiting cfg awaited).shown timely := by
  obtain ⟨hshow, hprogram, htime⟩ := h
  have hf := s.examineAwaiting_frame cfg awaited
  obtain hm | ⟨hm, hactive⟩ := s.examineAwaiting_monitor cfg awaited
  · unfold State.examineAwaiting at hf hm ⊢
    split
    next p hp =>
      rw [hp] at hm
      split_ifs with hdue
      · have hclear : (s.activate cfg awaited p).monitor.conditions.noProgram = false := by
          rw [State.activate_monitor]
        simp only [hdue, if_true] at hm
        have hfa := s.activate_frame cfg awaited p
        refine ⟨by rw [hm]; exact hshow, ?_, ?_⟩
        · rw [hclear, State.activate_programs]
          rfl
        · rw [hm, (hfa .time (by decide) : _ = s.time)]
          exact htime
      · exact ⟨hshow, hprogram, htime⟩
    · exact ⟨hshow, hprogram, htime⟩
  · refine ⟨by rw [hm]; exact hshow, by rw [hm, hactive], ?_⟩
    rw [hm, (hf .time (by decide) : _ = s.time)]
    exact htime

theorem State.examineProgram_shown (h : s.shown timely) : (s.examineProgram cfg).shown timely :=
  State.examineAwaiting_shown h

theorem State.clockEvent_shown {awaited : List Moment} {e : ClockEvent} (h : s.shown timely) :
    (s.clockEvent cfg awaited e).shown timely := by
  cases e with
  | boundary => exact State.shown_of_frame (s.resolveAwaiting_frame cfg awaited) (by decide) h
  | windowStart => exact State.shown_of_frame (s.resolveAwaiting_frame cfg awaited) (by decide) h
  | windowEnd =>
    exact State.shown_of_frame (s.expireWindows.resolveAwaiting_frame cfg awaited) (by decide)
      (State.shown_of_frame s.expireWindows_frame (by decide) h)
  | activation => exact State.examineAwaiting_shown h

theorem State.resolverTimeState_shown {before : TimeState} (h : s.shown timely) :
    (s.resolverTimeState cfg before).shown timely :=
  State.shown_of_frame (s.resolverTimeState_frame cfg before) (by decide) h

/-- Among events that keep the conditions, the report of the time state brings TIME_INVALID up to date. -/
theorem State.inSomeOrder_shown {acts : List (State → State)}
    (hacts : ∀ act ∈ acts, act = State.reportTimeInvalid cfg ∨ ∀ b t, State.shown b t → (act t).shown b)
    (h : s.shown timely) (hreport : timely = true ∨ State.reportTimeInvalid cfg ∈ acts) :
    (s.inSomeOrder acts).shown true := by
  have hkeep : ∀ act ∈ acts, ∀ b t, State.shown b t → (act t).shown b := fun act ha b t ht => by
    obtain rfl | hk := hacts act ha
    · have hfalse : t.shown false := ⟨ht.1, ht.2.1, fun hb => by cases hb⟩
      have := t.reportTimeInvalid_shown (cfg := cfg) hfalse
      exact ⟨this.1, this.2.1, fun _ => this.2.2 rfl⟩
    · exact hk b t ht
  have hmet : s.met.shown timely := State.shown_of_frame s.met_frame (by decide) h
  obtain rfl | hmem := hreport
  · exact State.inSomeOrder_keeps (fun act ha t => hkeep act ha true t) hmet
  · obtain ⟨pre, post, rfl⟩ := List.append_of_mem hmem
    refine State.inSomeOrder_makes (P := State.shown true) (Q := State.shown false) pre post _
      (fun act ha t => hkeep act ha true t) (fun act ha t => hkeep act ha false t)
      (fun t => State.reportTimeInvalid_shown) ⟨hmet.1, hmet.2.1, fun hb => by cases hb⟩

theorem State.reportTimeState_shown {before : TimeState} (h : s.shown false)
    (hb : s.time.state = before → s.shown true) : (s.reportTimeState cfg before).shown true := by
  unfold State.reportTimeState
  split_ifs with hsame
  · exact hb hsame
  · refine State.inSomeOrder_shown (timely := false) (cfg := cfg) ?_ h (.inr (by simp))
    simp only [List.forall_mem_cons, List.not_mem_nil, false_implies, implies_true, and_true]
    exact ⟨.inr fun _ _ => State.resolverTimeState_shown, .inr fun _ _ => State.examineProgram_shown, .inl trivial⟩

theorem State.timeCountdown_shown {f : Timekeeper → Timekeeper} (hl : s.loader.load = .configured cfg)
    (h : s.shown true) : (s.timeCountdown f).shown true := by
  unfold State.timeCountdown
  rw [hl]
  exact State.reportTimeState_shown ⟨h.1, h.2.1, fun hb => by cases hb⟩
    fun hsame => State.shown_of_same (s := s) rfl rfl hsame h

theorem State.advanceClock_shown (hl : s.loader.load = .configured cfg) (h : s.shown timely) :
    s.advanceClock.shown timely := by
  unfold State.advanceClock
  rw [hl]
  dsimp only
  refine State.takeClockEvents_keeps (P := State.shown timely) (fun awaited e t => State.clockEvent_shown) _ ?_
  exact State.shown_of_same (s := s) rfl rfl (Timekeeper.tick_state _ _) h

theorem State.takeClasses_shown {b : Beacon} (h : s.shown timely) : (s.takeClasses cfg b).shown timely := by
  have hf := s.takeClasses_frame cfg b
  refine State.shown_of_same (hf .monitor (by decide)) (congrArg Collector.active (hf .programs (by decide))) ?_ h
  rw [State.takeClasses_time, Timekeeper.takeClasses_state]

theorem State.beacon_shown {b : Beacon} {age : Nat} (h : s.shown true) : (s.beacon cfg b age).shown true := by
  by_cases hv : beaconValid cfg b age = true
  · rw [State.beacon_of_valid hv, beaconReports_eq]
    set d := s.time.judge cfg s.elapsed (b.estimate age) with hd
    have hf := s.decided_frame cfg (b.estimate age) d
    have htime := s.decided_time cfg (b.estimate age) d
    have hprograms : (s.decided cfg (b.estimate age) d).programs = s.programs := hf .programs (by decide)
    have hmonitor : (s.decided cfg (b.estimate age) d).monitor = s.monitor := hf .monitor (by decide)
    refine State.inSomeOrder_shown (cfg := cfg)
      (timely := decide ((s.time.obey cfg s.elapsed (b.estimate age) d).state = s.time.state)) ?_ ?_ ?_
    · simp only [List.mem_append, List.mem_singleton]
      rintro act (hact | rfl)
      · obtain ⟨-, rfl | rfl⟩ | ⟨-, rfl⟩ | ⟨-, rfl | rfl | rfl⟩ := mem_earlierReports.1 hact
        · exact .inr fun _ t => State.shown_of_frame (t.expireAndResolve_frame cfg) (by decide)
        · exact .inr fun _ _ => State.examineProgram_shown
        · exact .inr fun _ _ => State.reportStep_shown
        · exact .inr fun _ _ => State.resolverTimeState_shown
        · exact .inr fun _ _ => State.examineProgram_shown
        · exact .inl rfl
      · exact .inr fun _ _ => State.takeClasses_shown
    · refine ⟨by rw [hmonitor]; exact h.1, by rw [hmonitor, hprograms]; exact h.2.1, fun hsame => ?_⟩
      rw [hmonitor, htime, of_decide_eq_true hsame]
      exact h.2.2 rfl
    · by_cases hsame : (s.time.obey cfg s.elapsed (b.estimate age) d).state = s.time.state
      · exact .inl (decide_eq_true hsame)
      · exact .inr (List.mem_append_left _ (mem_earlierReports.2 (.inr (.inr ⟨hsame, .inr (.inr rfl)⟩))))
  · rw [State.beacon_of_invalid (by simpa using hv)]
    exact h

theorem State.complete_shown {image : List Byte} (h : s.shown timely) : (s.complete cfg image).shown timely := by
  unfold State.complete
  dsimp only
  split_ifs
  exacts [h, h, h, State.examineProgram_shown (s := State.count _ _) h]

theorem State.collect_shown {origin : Byte} {payload : List Byte} (h : s.shown timely) :
    (s.collect cfg origin payload).shown timely := by
  unfold State.collect
  dsimp only
  split_ifs
  exacts [State.complete_shown h, h, h]

theorem State.route_shown {copy : List Byte} (h : s.shown true) : (s.route cfg copy).shown true := by
  unfold State.route
  split_ifs
  · exact State.beacon_shown h
  · exact State.shown_of_frame (s.routeOrder_frame cfg copy) (by decide) h
  · exact h
  · exact State.collect_shown h
  · exact h
  · exact h

theorem State.filter_shown {copy : List Byte} {margin : Nat} (h : s.shown true) :
    (s.filter cfg copy margin).shown true := by
  refine State.filter_cases (fun k => h)
    (fun i _ _ => State.shown_of_frame (s.echo_frame cfg i copy _) (by decide) h) fun _ => ?_
  refine State.inSomeOrder_keeps (P := State.shown true) ?_ (State.shown_of_frame s.met_frame (by decide) h)
  simp only [List.forall_mem_cons, List.not_mem_nil, false_implies, implies_true, and_true]
  exact ⟨fun t => State.shown_of_frame (t.recordAcceptance_frame copy) (by decide),
    fun t => State.shown_of_frame (t.openEntry_frame cfg copy margin _) (by decide),
    fun t => State.restartSilence_shown, fun t => State.route_shown⟩

end

/-! ## The commands -/

theorem State.conditionsSound_iff_of_configured {s : State} {cfg : Configuration}
    (hl : s.loader.load = .configured cfg) : s.conditionsSound ↔
      s.monitor.countdownsShow ∧ (s.running = true → s.shown true) := by
  simp only [State.conditionsSound, hl, State.shown]
  tauto

theorem State.conditionsSound_of_same {s t : State} (hrun : t.running = s.running)
    (hload : t.loader.load = s.loader.load) (hm : t.monitor = s.monitor)
    (hp : t.programs.active = s.programs.active) (ht : t.time.state = s.time.state) (h : s.conditionsSound) :
    t.conditionsSound := by
  rw [State.conditionsSound, hrun, hload, hm, hp, ht]
  exact h

/-- A part that stands still may be told anything but the monitor's own matter. -/
theorem State.conditionsSound_of_stopped (s : State) {t : State} (hrun : t.running = false)
    (hload : t.loader.load = s.loader.load) (hm : t.monitor = s.monitor) (h : s.conditionsSound) :
    t.conditionsSound := by
  rw [State.conditionsSound, hload, hm]
  refine ⟨h.1, ?_⟩
  have hrest := h.2
  split
  · intro hr
    simp [hrun] at hr
  next hl => simpa only [hl] using hrest
  next hl => simpa only [hl] using hrest

theorem State.conditionsSound_of_restart {s : State} (hl : s.loader.load = .loading) (hm : s.monitor = .restart) :
    s.conditionsSound := by
  rw [State.conditionsSound, hl, hm]
  simp [Monitor.countdownsShow, Monitor.restart, Conditions.clear]

/-- The placement takes TIME_INVALID and NO_PROGRAM as they stand, whatever comes before and after it (R147, R191). -/
theorem State.foundConfigured_conditionsSound {cfg : Configuration} {noise : Rat} {v : Bool} {s : State}
    (hl : s.loader.load = .loading) (h : s.conditionsSound) : (s.foundConfigured cfg noise v).conditionsSound := by
  obtain ⟨-, hrest⟩ := h
  simp only [hl] at hrest
  obtain ⟨hclear, -, hhold⟩ := hrest
  have hload : (s.foundConfigured cfg noise v).loader.load = .configured cfg := by
    rw [State.foundConfigured_loader]
  have hplaced : ∀ t : State, t.monitor.countdownsShow → (t.placeChannels cfg).shown true := fun t ht => by
    have hm : (t.placeChannels cfg).monitor = t.takeConditions.monitor := State.onEachChannel_monitor _ _
    have hf := t.placeChannels_frame cfg
    refine ⟨by rw [hm]; exact ht, ?_, fun _ => ?_⟩
    · rw [hm, (hf .programs (by decide) : _ = t.programs)]
      rfl
    · rw [hm, (hf .time (by decide) : _ = t.time)]
      rfl
  have hexamined : ∀ t : State, t.monitor.countdownsShow → (t.examineProgram cfg).monitor.countdownsShow := fun t ht => by
    obtain hm | ⟨hm, -⟩ := t.examineAwaiting_monitor cfg []
    · rw [State.examineProgram, hm]
      exact ht
    · rw [State.examineProgram, hm]
      exact ht
  have hshown : (s.foundConfigured cfg noise v).shown true := by
    refine State.inSomeOrder_makes (P := State.shown true) (Q := fun t => t.monitor.countdownsShow)
      [State.examineProgram cfg] [State.expireAndResolve cfg] (State.placeChannels cfg) ?_ ?_ hplaced ?_
    · simp only [List.cons_append, List.nil_append, List.forall_mem_cons, List.not_mem_nil, false_implies,
        implies_true, and_true]
      exact ⟨fun t => State.examineProgram_shown, fun t ht => hplaced t ht.1,
        fun t => State.shown_of_frame (t.expireAndResolve_frame cfg) (by decide)⟩
    · simp only [List.cons_append, List.nil_append, List.forall_mem_cons, List.not_mem_nil, false_implies,
        implies_true, and_true]
      refine ⟨hexamined, fun t ht => (hplaced t ht).1, fun t ht => ?_⟩
      rwa [(t.expireAndResolve_frame cfg .monitor (by decide) : _ = t.monitor)]
    · show (s.monitor.conditions.silence = true ↔ cfg.silenceStart = some 0) ∧
        (s.monitor.conditions.timeStep = true ↔ 0 < s.monitor.stepHold)
      simp [hclear, hhold, Conditions.clear, cfg.silenceStart_ne_zero]
  exact (State.conditionsSound_iff_of_configured hload).2 ⟨hshown.1, fun _ => hshown⟩

theorem State.after_conditionsSound {s : State} (i : Instr) (h : s.conditionsSound) : (s.after i).conditionsSound := by
  have hloaded : ∀ {cfg : Configuration} {t : State}, s.loader.load = .configured cfg → s.running = true → t.loader = s.loader →
      (s.shown true → t.shown true) → t.conditionsSound := fun {cfg t} hl hrun ht hshown => by
    have hs := hshown (((State.conditionsSound_iff_of_configured hl).1 h).2 hrun)
    exact (State.conditionsSound_iff_of_configured ((congrArg Loader.load ht).trans hl)).2 ⟨hs.1, fun _ => hs⟩
  have hconfigured : ∀ f : Configuration → State, (∀ cfg, s.shown true → (f cfg).shown true) →
      (s.whenConfigured f).loader = s.loader → (s.whenConfigured f).conditionsSound := fun f hf hload => by
    by_cases hr : ∃ cfg, s.runsWith cfg
    · obtain ⟨cfg, hr⟩ := hr
      rw [State.whenConfigured_eq hr] at hload ⊢
      exact hloaded hr.2 hr.1 hload (hf cfg)
    · exact State.whenConfigured_cases h fun cfg hcfg => absurd ⟨cfg, hcfg⟩ hr
  have hframe : (∀ p ∈ [Part.power, .loader, .monitor, .programs, .time], p ∉ i.touches) →
      (s.after i).conditionsSound := fun hps => by
    have hpower : (s.after i).power = s.power := s.after_same i (hps .power (by decide))
    exact State.conditionsSound_of_same (by rw [State.running, hpower, State.running])
      (congrArg Loader.load (s.after_same i (hps .loader (by decide)))) (s.after_same i (hps .monitor (by decide)))
      (congrArg Collector.active (s.after_same i (hps .programs (by decide))))
      (congrArg Timekeeper.state (s.after_same i (hps .time (by decide)))) h
  have timed : ∀ f : Timekeeper → Timekeeper, s.running = true → (s.timeCountdown f).conditionsSound := fun f hrun => by
    have hf := s.timeCountdown_frame f
    cases hl : s.loader.load with
    | configured cfg => exact hloaded hl hrun (hf .loader (by decide)) (State.timeCountdown_shown hl)
    | loading =>
      obtain ⟨hshow, hrest⟩ := h
      simp only [hl] at hrest
      have hm : (s.timeCountdown f).monitor = s.monitor := by
        unfold State.timeCountdown
        rw [hl]
        dsimp only
        split_ifs <;> rfl
      rw [State.conditionsSound, hm, (hf .loader (by decide) : _ = s.loader), hl]
      exact ⟨hshow, hrest⟩
    | unconfigured =>
      have hsame : s.timeCountdown f = s := by
        unfold State.timeCountdown
        rw [hl]
      rwa [hsame]
  have hload : Part.loader ∉ i.touches → (s.after i).loader = s.loader := fun hp => s.after_same i hp
  cases i
  case coldRestart =>
    rw [State.after_coldRestart]
    split_ifs
    exacts [State.conditionsSound_of_restart rfl rfl, h]
  case warmRestart =>
    rw [State.after_warmRestart]
    split_ifs
    exacts [State.conditionsSound_of_restart rfl rfl, h]
  case supplyFailure =>
    rw [State.after_supplyFailure]
    split_ifs
    exacts [State.conditionsSound_of_stopped s rfl rfl rfl h, State.conditionsSound_of_stopped s rfl rfl rfl h, h]
  case nresetAsserted =>
    exact State.conditionsSound_of_stopped s (by simp [State.running, State.cutOff, State.clearRetained]) rfl rfl h
  case vholdLoss =>
    rw [State.after_vholdLoss]
    split_ifs with hup
    · exact h
    · exact State.conditionsSound_of_stopped s (by simp [State.running, State.clearRetained, hup]) rfl rfl h
  case retainedClockTick =>
    rw [State.after_retainedClockTick]
    split_ifs with hb
    · refine State.conditionsSound_of_stopped s ?_ rfl rfl h
      have hup : s.power.vddUp = false := by
        simp only [State.bridged, Bool.and_eq_true, Bool.not_eq_true'] at hb
        exact hb.1.1
      simp [State.running, hup]
    · exact h
  case readAttemptEnd a noise v =>
    rw [State.after_readAttemptEnd]
    refine State.whenRunning_cases h fun _ => ?_
    split_ifs with hread
    · rw [Bool.and_eq_true] at hread
      have hl := (s.loader.reading_iff.1 hread.1).1
      refine State.judgeAttempt_cases (fun image => h) (fun image => ?_) fun image _ =>
        State.foundConfigured_conditionsSound (s := s.setLoader _) hl h
      have hm := State.foundUnconfigured_frame v (s.setLoader { s.loader with bus := attemptActions a, image := image })
        .monitor (by decide)
      rw [State.conditionsSound, State.foundUnconfigured_loader, (hm : _ = s.monitor)]
      obtain ⟨hshow, hrest⟩ := h
      simp only [hl] at hrest
      exact ⟨hshow, hrest⟩
    · exact h
  case readRetry =>
    rw [State.after_readRetry]
    refine State.whenRunning_cases h fun _ => ?_
    unfold State.retry
    split
    · split_ifs
      exacts [h, h]
    · exact h
  case receptionEnd bytes levels =>
    refine hconfigured _ (fun cfg hs => ?_) (hload (by simp [Instr.touches]))
    exact State.receive_cases (P := State.shown true) hs fun _ _ _ _ copy margin _ =>
      State.filter_shown (s := s.endReception) hs
  case clockAdvance =>
    rw [State.after_clockAdvance]
    refine State.whenRunning_cases h fun hrun => ?_
    have hf := s.advanceClock_frame
    cases hl : s.loader.load with
    | configured cfg => exact hloaded hl hrun (hf .loader (by decide)) (State.advanceClock_shown hl)
    | _ =>
      rw [State.advanceClock_of_not_configured (by simp [hl])]
      exact State.conditionsSound_of_same (s := s) rfl rfl rfl rfl (Timekeeper.tick_state _ _) h
  case holdCountdownExpiry =>
    rw [State.after_holdCountdownExpiry]
    exact State.whenRunning_cases h (timed Timekeeper.holdTick)
  case lostCountdownExpiry =>
    rw [State.after_lostCountdownExpiry]
    exact State.whenRunning_cases h (timed Timekeeper.lostTick)
  case assemblyTimeout =>
    refine hconfigured _ (fun cfg hs => ?_) (hload (by simp [Instr.touches]))
    unfold State.assemblyTick
    split
    · exact hs
    · split_ifs
      exacts [hs, hs]
  case silenceExpiry =>
    exact hconfigured _ (fun cfg hs => State.silenceTick_shown hs) (hload (by simp [Instr.touches]))
  case stepHoldExpiry =>
    exact hconfigured _ (fun cfg hs => State.stepHoldTick_shown hs) (hload (by simp [Instr.touches]))
  case mainsCrossing phase =>
    refine hconfigured _ (fun cfg hs => ?_) (hload (by simp [Instr.touches]))
    split_ifs
    exacts [hs, hs]
  case mainsNoCrossing =>
    refine hconfigured _ (fun cfg hs => ?_) (hload (by simp [Instr.touches]))
    split_ifs
    exacts [hs, hs]
  case mainsFreqRaise =>
    refine hconfigured _ (fun cfg hs => ?_) (hload (by simp [Instr.touches]))
    split_ifs
    exacts [State.setMainsFreq_shown hs, hs]
  case mainsFreqClear =>
    refine hconfigured _ (fun cfg hs => ?_) (hload (by simp [Instr.touches]))
    split_ifs
    exacts [State.setMainsFreq_shown hs, hs]
  all_goals exact hframe (by simp [Instr.touches])

/-- Settles O57: each event of the monitor writes a condition from what it names, and each change of the time state
and of the active program is reported to it before the event is over. -/
theorem conditionsShowTheirCauses : Obligations.ConditionsShowTheirCauses := fun _ _ hs hstep =>
  step_keeps_of_reads (P := State.conditionsSound) [.power, .loader, .monitor, .programs, .time]
    (fun s t hst => by
      have hpower : t.power = s.power := hst .power (by decide)
      exact State.conditionsSound_of_same (by rw [State.running, hpower, State.running])
        (congrArg Loader.load (hst .loader (by decide))) (hst .monitor (by decide))
        (congrArg Collector.active (hst .programs (by decide)))
        (congrArg Timekeeper.state (hst .time (by decide))))
    (by decide) (fun s h => h) (fun i _ _ h => State.after_conditionsSound i h) hs hstep

end Sys2Proof.Machine
end

section
/-! PROOF. Every step keeps each channel of a CONFIGURED part settled (R143, R157 to R161, R163, R165, R172 to R174). -/

namespace Sys2Proof.Machine

/-! ## The local inputs -/

section
variable {cc : ChannelConfig} {active : Conditions} {u : ChannelUnit}

/-- The input is no part of what is settled. -/
theorem ChannelUnit.settled_of_input (h : u.settled cc active) (x : LocalInput) :
    ({ u with input := x } : ChannelUnit).settled cc active :=
  ChannelUnit.settled_of_same h rfl rfl rfl rfl rfl rfl

theorem Work.takeDeferred_settled {w : Work} (h : w.unit.settled cc active) :
    (w.takeDeferred cc).unit.settled cc active := by
  cases hc : cc.used with
  | true =>
    obtain ⟨hhanded, htracks, hstate⟩ := (ChannelUnit.settled_used hc).1 h
    obtain ⟨htaken, hdeferred⟩ := Work.takeDeferred_tracks cc htracks
    have hrequested : (w.takeDeferred cc).unit.requested cc = w.unit.requested cc :=
      ChannelUnit.requested_congr cc (by simp) (by simp) (by simp)
    refine (ChannelUnit.settled_used hc).2 ⟨?_, ⟨htaken, hdeferred⟩, ?_⟩
    · rw [hrequested, Work.takeDeferred_handed, hhanded]
    · have heffective : (w.takeDeferred cc).unit.effective cc active = w.unit.effective cc active :=
        ChannelUnit.effective_congr cc active (by simp)
      rw [Work.takeDeferred_state, hstate, heffective]
  | false =>
    obtain ⟨-, hdeferred, -⟩ := (ChannelUnit.settled_unused hc).1 h
    rwa [Work.takeDeferred_none cc hdeferred]

theorem Work.sample_settled (x : Contact) (h : u.settled cc active) :
    ((Work.idle u).sample cc x).unit.settled cc active := by
  unfold Work.sample
  split_ifs
  exacts [ChannelUnit.settled_of_input h _, h]

theorem Work.firstQualification_settled (x : Contact) (h : u.settled cc active) :
    ((Work.idle u).firstQualification cc x).unit.settled cc active := by
  unfold Work.firstQualification
  split_ifs
  exacts [ChannelUnit.settled_of_input h _, h]

theorem Work.assertion_settled (minutes : Nat) (h : u.settled cc active) :
    ((Work.idle u).assertion cc minutes).unit.settled cc active := by
  unfold Work.assertion
  dsimp only
  split_ifs
  exacts [Work.press_settled (w := (Work.idle u).put _) (ChannelUnit.settled_of_input h _),
    ChannelUnit.settled_of_input h _, h]

theorem Work.qualifiedRelease_settled (h : u.settled cc active) :
    ((Work.idle u).qualifiedRelease cc).unit.settled cc active := by
  unfold Work.qualifiedRelease
  dsimp only
  split_ifs
  exacts [Work.takeDeferred_settled (w := (Work.idle u).put _) (ChannelUnit.settled_of_input h _),
    ChannelUnit.settled_of_input h _, h]

end

/-! ## The events of the whole part -/

section
variable {cfg : Configuration} {s : State}

theorem State.advanceClock_settled (hl : s.loader.load = .configured cfg) (h : s.settledWith cfg) :
    s.advanceClock.settledWith cfg := by
  unfold State.advanceClock
  rw [hl]
  exact State.takeClockEvents_settled (s := (s.setTime _).met) h

theorem State.timeCountdown_settled {f : Timekeeper → Timekeeper} (hl : s.loader.load = .configured cfg)
    (h : s.settledWith cfg) : (s.timeCountdown f).settledWith cfg := by
  unfold State.timeCountdown
  rw [hl]
  exact State.reportTimeState_settled (s := s.setTime _) h

theorem State.foundConfigured_settled (cfg : Configuration) (noise : Rat) (v : Bool) (s : State) :
    (s.foundConfigured cfg noise v).settledWith cfg := by
  refine State.inSomeOrder_makes (P := State.settledWith cfg) (Q := fun _ => True) [State.examineProgram cfg]
    [State.expireAndResolve cfg] (State.placeChannels cfg) ?_ (fun _ _ _ _ => trivial)
    (fun t _ => State.placeChannels_settled cfg t) trivial
  simp only [List.cons_append, List.nil_append, List.forall_mem_cons, List.not_mem_nil, false_implies, implies_true,
    and_true]
  exact ⟨fun t => State.examineProgram_settled, fun t _ => State.placeChannels_settled cfg t,
    fun t => State.expireAndResolve_settled⟩

end

/-! ## The commands -/

theorem State.channelsSound_iff_of_configured {s : State} {cfg : Configuration}
    (hl : s.loader.load = .configured cfg) : s.channelsSound ↔ (s.running = true → s.settledWith cfg) := by
  simp only [State.channelsSound, hl, State.settledWith]

theorem State.channelsSound_of_same {s t : State} (hrun : t.running = s.running)
    (hload : t.loader.load = s.loader.load) (hm : t.monitor = s.monitor) (hc : t.channels = s.channels)
    (h : s.channelsSound) : t.channelsSound := by
  rw [State.channelsSound, hrun, hload, hm, hc]
  exact h

theorem State.channelsSound_of_not_configured {s : State} (h : ∀ cfg, s.loader.load ≠ .configured cfg) :
    s.channelsSound := by
  unfold State.channelsSound
  split
  next cfg hl => exact absurd hl (h cfg)
  all_goals trivial

theorem State.channelsSound_of_stopped {s : State} (h : s.running = false) : s.channelsSound := by
  unfold State.channelsSound
  split
  · intro hr
    simp [h] at hr
  all_goals trivial

theorem State.after_channelsSound {s : State} (i : Instr) (h : s.channelsSound) : (s.after i).channelsSound := by
  have hloaded : ∀ {cfg : Configuration} {t : State}, s.loader.load = .configured cfg → s.running = true →
      t.loader = s.loader → (s.settledWith cfg → t.settledWith cfg) → t.channelsSound := fun hl hrun ht hsettled =>
    (State.channelsSound_iff_of_configured ((congrArg Loader.load ht).trans hl)).2 fun _ =>
      hsettled ((State.channelsSound_iff_of_configured hl).1 h hrun)
  have hconfigured : ∀ f : Configuration → State, (∀ cfg, s.settledWith cfg → (f cfg).settledWith cfg) →
      (s.whenConfigured f).loader = s.loader → (s.whenConfigured f).channelsSound := fun f hf hload => by
    by_cases hr : ∃ cfg, s.runsWith cfg
    · obtain ⟨cfg, hr⟩ := hr
      rw [State.whenConfigured_eq hr] at hload ⊢
      exact hloaded hr.2 hr.1 hload (hf cfg)
    · exact State.whenConfigured_cases h fun cfg hcfg => absurd ⟨cfg, hcfg⟩ hr
  have hframe : (∀ p ∈ [Part.power, .loader, .monitor, .channels], p ∉ i.touches) →
      (s.after i).channelsSound := fun hps => by
    have hpower : (s.after i).power = s.power := s.after_same i (hps .power (by decide))
    exact State.channelsSound_of_same (by rw [State.running, hpower, State.running])
      (congrArg Loader.load (s.after_same i (hps .loader (by decide)))) (s.after_same i (hps .monitor (by decide)))
      (s.after_same i (hps .channels (by decide))) h
  have hload : Part.loader ∉ i.touches → (s.after i).loader = s.loader := fun hp => s.after_same i hp
  have timed : ∀ f : State → State, (f s).loader = s.loader →
      (∀ cfg, s.loader.load = .configured cfg → s.settledWith cfg → (f s).settledWith cfg) → s.running = true →
      (f s).channelsSound := fun f hl hf hrun => by
    by_cases hc : ∃ cfg, s.loader.load = .configured cfg
    · obtain ⟨cfg, hc⟩ := hc
      exact hloaded hc hrun hl (hf cfg hc)
    · exact State.channelsSound_of_not_configured fun cfg hcfg => hc ⟨cfg, by rw [← hl]; exact hcfg⟩
  cases i
  case coldRestart =>
    rw [State.after_coldRestart]
    split_ifs
    exacts [trivial, h]
  case warmRestart =>
    rw [State.after_warmRestart]
    split_ifs
    exacts [trivial, h]
  case supplyFailure =>
    rw [State.after_supplyFailure]
    split_ifs
    exacts [State.channelsSound_of_stopped rfl, State.channelsSound_of_stopped rfl, h]
  case nresetAsserted =>
    exact State.channelsSound_of_stopped (by simp [State.running, State.cutOff, State.clearRetained])
  case vholdLoss =>
    rw [State.after_vholdLoss]
    split_ifs
    exacts [h, h]
  case retainedClockTick =>
    rw [State.after_retainedClockTick]
    split_ifs
    exacts [h, h]
  case readAttemptEnd a noise v =>
    rw [State.after_readAttemptEnd]
    refine State.whenRunning_cases h fun _ => ?_
    split_ifs with hread
    · refine State.judgeAttempt_cases (fun image => h) (fun image => ?_) fun image _ => ?_
      · exact State.channelsSound_of_not_configured fun cfg => by simp [State.foundUnconfigured_loader]
      · refine (State.channelsSound_iff_of_configured ?_).2 fun _ => State.foundConfigured_settled _ _ _ _
        rw [State.foundConfigured_loader]
    · exact h
  case readRetry =>
    rw [State.after_readRetry]
    refine State.whenRunning_cases h fun _ => ?_
    unfold State.retry
    split
    · split_ifs
      exacts [h, h]
    · exact h
  case receptionEnd bytes levels =>
    refine hconfigured _ (fun cfg hs => ?_) (hload (by simp [Instr.touches]))
    exact State.receive_cases (P := State.settledWith cfg) hs fun _ _ _ _ copy margin _ =>
      State.filter_settled (s := s.endReception) hs
  case clockAdvance =>
    rw [State.after_clockAdvance]
    exact State.whenRunning_cases h (timed State.advanceClock (s.advanceClock_frame .loader (by decide))
      fun cfg => State.advanceClock_settled)
  case holdCountdownExpiry =>
    rw [State.after_holdCountdownExpiry]
    exact State.whenRunning_cases h (timed _ (s.timeCountdown_frame Timekeeper.holdTick .loader (by decide))
      fun cfg => State.timeCountdown_settled)
  case lostCountdownExpiry =>
    rw [State.after_lostCountdownExpiry]
    exact State.whenRunning_cases h (timed _ (s.timeCountdown_frame Timekeeper.lostTick .loader (by decide))
      fun cfg => State.timeCountdown_settled)
  case delayEnd c =>
    exact hconfigured _ (fun cfg => State.onChannel_settled fun u => Work.recordTick_settled)
      (hload (by simp [Instr.touches]))
  case runEnd c =>
    exact hconfigured _ (fun cfg => State.onChannel_settled fun u => Work.recordTick_settled)
      (hload (by simp [Instr.touches]))
  case portionEnd c =>
    exact hconfigured _ (fun cfg => State.onChannel_settled fun u => Work.recordTick_settled)
      (hload (by simp [Instr.touches]))
  case silenceExpiry =>
    exact hconfigured _ (fun cfg => State.silenceTick_settled) (hload (by simp [Instr.touches]))
  case stepHoldExpiry =>
    exact hconfigured _ (fun cfg => State.stepHoldTick_settled) (hload (by simp [Instr.touches]))
  case mainsCrossing phase =>
    refine hconfigured _ (fun cfg hs => ?_) (hload (by simp [Instr.touches]))
    split_ifs
    exacts [hs, hs]
  case mainsNoCrossing =>
    refine hconfigured _ (fun cfg hs => ?_) (hload (by simp [Instr.touches]))
    split_ifs
    exacts [hs, hs]
  case mainsFreqRaise =>
    refine hconfigured _ (fun cfg hs => ?_) (hload (by simp [Instr.touches]))
    split_ifs
    exacts [State.setCondition_settled hs, hs]
  case mainsFreqClear =>
    refine hconfigured _ (fun cfg hs => ?_) (hload (by simp [Instr.touches]))
    split_ifs
    exacts [State.setCondition_settled hs, hs]
  case returnCountdownExpiry c =>
    exact hconfigured _ (fun cfg => State.onChannel_settled fun u => Work.returnTick_settled)
      (hload (by simp [Instr.touches]))
  case dwellEnd c =>
    exact hconfigured _ (fun cfg => State.onChannel_settled fun u => Work.dwellTick_settled)
      (hload (by simp [Instr.touches]))
  case qualifiedAssertion c =>
    exact hconfigured _ (fun cfg => State.onChannel_settled fun u => Work.assertion_settled _)
      (hload (by simp [Instr.touches]))
  case qualifiedRelease c =>
    exact hconfigured _ (fun cfg => State.onChannel_settled fun u => Work.qualifiedRelease_settled)
      (hload (by simp [Instr.touches]))
  case firstQualification c x =>
    exact hconfigured _ (fun cfg => State.onChannel_settled fun u => Work.firstQualification_settled x)
      (hload (by simp [Instr.touches]))
  case localInputSample c x =>
    exact hconfigured _ (fun cfg => State.onChannel_settled fun u => Work.sample_settled x)
      (hload (by simp [Instr.touches]))
  all_goals exact hframe (by simp [Instr.touches])

/-- No channel is changed by the passing of a tick in what is settled. -/
theorem State.elapse_channelsSound {s : State} (h : s.channelsSound) : s.elapse.channelsSound := by
  by_cases hc : ∃ cfg, s.loader.load = .configured cfg
  · obtain ⟨cfg, hl⟩ := hc
    refine (State.channelsSound_iff_of_configured (s := s.elapse) hl).2 fun hrun c => ?_
    have hget : s.elapse.channels.get c = (s.channels.get c).nextTick := Six.get_of _ _
    rw [hget]
    exact ChannelUnit.settled_of_same ((State.channelsSound_iff_of_configured hl).1 h hrun c) rfl rfl rfl rfl rfl rfl
  · exact State.channelsSound_of_not_configured fun cfg hcfg => hc ⟨cfg, hcfg⟩

/-- Settles O58: every event at a channel leaves a settled channel settled, and the placement settles each anew. -/
theorem channelsStaySettled : Obligations.ChannelsStaySettled := fun _ _ hs hstep =>
  step_keeps_of_reads (P := State.channelsSound) [.power, .loader, .monitor, .channels]
    (fun s t hst => by
      have hpower : t.power = s.power := hst .power (by decide)
      exact State.channelsSound_of_same (by rw [State.running, hpower, State.running])
        (congrArg Loader.load (hst .loader (by decide))) (hst .monitor (by decide)) (hst .channels (by decide)))
    (by decide) (fun s => State.elapse_channelsSound) (fun i _ _ h => State.after_channelsSound i h) hs hstep

end Sys2Proof.Machine
end

section
/-! PROOF. The carrier, the start mark and the clean tick (sections 1.2, 1.4 and 1.5). -/

namespace Sys2Proof.Machine

/-! ## When the part does not run CONFIGURED -/

theorem State.whenConfigured_of_not {s : State} (h : ∀ cfg, ¬ s.runsWith cfg) (f : Configuration → State) :
    s.whenConfigured f = s :=
  State.whenConfigured_cases (P := (· = s)) rfl fun cfg hcfg => absurd hcfg (h cfg)

/-! ## A carrier (R9) -/

section
variable (s : State)

theorem Line.hearCarrier_cleanFrom_of_past {l : Line} {now a : Nat} (h : l.carrierAt = some a) (ha : a < now) :
    (l.hearCarrier now).cleanFrom = max l.cleanFrom (a + 1) := by
  simp [Line.hearCarrier, h, ha]

theorem Line.hearCarrier_cleanFrom_of_none {l : Line} {now : Nat} (h : ∀ a, l.carrierAt = some a → now ≤ a) :
    (l.hearCarrier now).cleanFrom = l.cleanFrom := by
  have hany : l.carrierAt.any (· < now) = false := by
    rw [Option.any_eq_false]
    exact fun a ha => by simpa using h a ha
  simp [Line.hearCarrier, hany]

theorem State.hearCarrier_of_configured {s : State} {cfg : Configuration} (hl : s.loader.load = .configured cfg) :
    s.hearCarrier = (s.setLine (s.line.hearCarrier s.elapsed)).turnBusy := by
  unfold State.hearCarrier
  rw [hl]

theorem State.hearCarrier_of_not_configured {s : State} (hl : ¬ ∃ cfg, s.loader.load = .configured cfg) :
    s.hearCarrier = s.setLine (s.line.hearCarrier s.elapsed) := by
  unfold State.hearCarrier
  split
  next cfg h => exact absurd ⟨cfg, h⟩ hl
  · rfl
  · rfl

/-- What a line that turns BUSY reports, whatever else of it changed at the same time (R51). -/
theorem State.turnBusy_reported (l : Line) (hi : l.indication = s.line.indication) :
    (s.setLine l).turnBusy.relay = (if s.line.indication = .quiet then
      { s.relay with access := if s.relay.access = .transmitting then .transmitting else .lineBusy } else s.relay) ∧
    s.keepsAllBut [.line, .relay] (s.setLine l).turnBusy := by
  refine ⟨?_, ((s.setLine_frame l).mono (by decide)).trans (State.turnBusy_frame _)⟩
  rw [State.turnBusy_relay, State.setLine_line, hi]
  rfl

end

/-- Settles O16: both events end in `State.turnBusy`, whose line and relay are said once. -/
theorem carrierAndStartMarkTurnTheLineBusy : Obligations.CarrierAndStartMarkTurnTheLineBusy := by
  intro s hrun configured busied reported heard
  have hcleanFrom : ∀ t : State, t.line.cleanFrom = (s.line.hearCarrier s.elapsed).cleanFrom →
      (∀ a, s.line.carrierAt = some a → a < s.elapsed → t.line.cleanFrom = max s.line.cleanFrom (a + 1)) ∧
      ((∀ a, s.line.carrierAt = some a → s.elapsed ≤ a) → t.line.cleanFrom = s.line.cleanFrom) := fun t ht => by
    rw [ht]
    exact ⟨fun a => Line.hearCarrier_cleanFrom_of_past, Line.hearCarrier_cleanFrom_of_none⟩
  have hcarrier : s.after .carrierAppears = s.hearCarrier := by
    rw [State.after_carrierAppears, State.whenRunning_eq hrun]
  refine ⟨fun ⟨cfg, hl⟩ => ⟨_, exec_eq_next _ s, ?_⟩, fun hl => ⟨_, exec_eq_next _ s, ?_⟩,
    fun ⟨cfg, hl⟩ hlistening => ⟨_, exec_eq_next _ s, ?_⟩, fun hnot => ?_⟩
  · rw [hcarrier, State.hearCarrier_of_configured hl]
    refine ⟨s.turnBusy_reported _ rfl, ?_, hcleanFrom _ ?_⟩
    · rw [State.turnBusy_line]
      rfl
    · rw [State.turnBusy_line]
      rfl
  · rw [hcarrier, State.hearCarrier_of_not_configured hl]
    exact ⟨s.setLine_frame _, rfl, hcleanFrom _ rfl⟩
  · have hstart : s.hearStart = (s.setLine { s.line with receiver := .receiving [] 0 s.elapsed }).turnBusy := by
      unfold State.hearStart
      rw [hlistening]
    rw [State.after_startMark, State.whenConfigured_eq ⟨hrun, hl⟩, hstart]
    exact ⟨s.turnBusy_reported _ rfl, State.turnBusy_line _⟩
  · rw [exec_eq_next, State.after_startMark]
    by_cases hl : configured
    · obtain ⟨cfg, hl⟩ := hl
      have hdeaf := hnot.resolve_left (not_not_intro ⟨cfg, hl⟩)
      rw [State.whenConfigured_eq ⟨hrun, hl⟩]
      unfold State.hearStart
      split
      next h => exact absurd h hdeaf
      · rfl
      · rfl
    · rw [State.whenConfigured_of_not fun cfg hcfg => hl ⟨cfg, hcfg.2⟩]

/-! ## A clean tick (R8, R9, R50) -/

theorem nextNoise_le_zero {noise level : Rat} (hn : noise ≤ 0) (hl : level < 0) : nextNoise noise level ≤ 0 := by
  unfold nextNoise
  linarith

/-- Settles O17: the model's clean tick and taken line are the ones the statement writes out
(`State.tickWasClean_iff`, `Line.taken_iff`), and `State.turnQuiet` draws the backoff. -/
theorem cleanTickTurnsTheLineQuiet : Obligations.CleanTickTurnsTheLineQuiet := by
  intro s level hrun clean taken moved
  have hclean : s.tickWasClean level = true ↔ clean := s.tickWasClean_iff level
  have htaken : s.line.taken s.elapsed = true ↔ taken := s.line.taken_iff s.elapsed
  have hafter : s.after (.cleanTick level) = s.cleanTick level := by
    rw [State.after_cleanTick, State.whenRunning_eq hrun]
  have hmove : s.moveNoise level = s.setLine moved := rfl
  refine ⟨nextNoise_le_zero, fun hnot => ?_, fun hl hc => ?_, fun cfg hl hc => ⟨fun ht => ?_, fun ht => ?_⟩⟩
  · rw [exec_eq_next, hafter]
    unfold State.cleanTick
    obtain hl | hn := hnot
    · rw [hl, ite_self]
    · rw [if_neg (mt hclean.1 hn)]
  · rw [exec_eq_next, hafter]
    unfold State.cleanTick
    rw [if_pos (hclean.2 hc), hl, hmove]
  · rw [exec_eq_next, hafter]
    unfold State.cleanTick
    rw [if_pos (hclean.2 hc), hl]
    dsimp only
    rw [if_pos (htaken.2 ht), hmove]
  · refine ⟨(s.setLine moved).turnQuiet, ?_, State.turnQuiet_line _, fun h => ?_, fun hb ha hd => ?_,
      fun hb ha hd => ?_, ((s.setLine_frame moved).mono (by decide)).trans (State.turnQuiet_frame _)⟩
    · rw [exec_eq_next, hafter]
      unfold State.cleanTick
      rw [if_pos (hclean.2 hc), hl]
      dsimp only
      rw [if_neg (mt htaken.1 ht), hmove]
    · exact State.turnQuiet_relay_of_not_waiting (s.setLine moved) h
    · have hquiet := State.turnQuiet_relay_of_due (s.setLine moved) hb ha hd
      obtain ⟨hlow, hhigh⟩ := backoffDraw_range s.relay.generator
      refine ⟨backoffDraw s.relay.generator, hlow, hhigh, ?_⟩
      rw [hquiet]
      rfl
    · exact State.turnQuiet_relay_of_none_due (s.setLine moved) hb ha hd

end Sys2Proof.Machine
end

section
/-! PROOF. The place of a new entry, the offer, the transmission's end and expiry (chapter 3). -/

namespace Sys2Proof.Machine

/-! ## The place of a new entry (R43) -/

/-- What R43 orders the settled entries by. -/
def settledKey (slot : Option HeardEntry) : Option Nat :=
  slot.bind fun e => if e.relay.settled then some e.firstHeard else none

theorem settledKey_eq_some {slot : Option HeardEntry} {k : Nat} :
    settledKey slot = some k ↔ ∃ e, slot = some e ∧ e.relay.settled = true ∧ e.firstHeard = k := by
  cases slot with
  | none => simp [settledKey]
  | some e => by_cases h : e.relay.settled = true <;> simp [settledKey, h]

theorem placeFor_of_free {heard : List (Option HeardEntry)} {i : Nat} (hi : heard[i]? = some none)
    (hfirst : ∀ j, j < i → heard[j]? ≠ some none) : placeFor heard = some i := by
  obtain ⟨hlt, hget⟩ := List.getElem?_eq_some_iff.1 hi
  have hfree : heard.findIdx? Option.isNone = some i := by
    refine List.findIdx?_eq_some_iff_getElem.2 ⟨hlt, by simp [hget], fun j hj => ?_⟩
    have hne := hfirst j hj
    rw [List.getElem?_eq_getElem (hj.trans hlt), ne_eq, Option.some.injEq] at hne
    simpa using hne
  rw [placeFor, hfree]

theorem placeFor_of_full {heard : List (Option HeardEntry)} (hfull : ∀ slot ∈ heard, slot ≠ none) :
    placeFor heard = (leastKeyed settledKey heard).map (·.1) := by
  have hnone : heard.findIdx? Option.isNone = none :=
    List.findIdx?_eq_none_iff.2 fun slot hslot => by
      simpa [Option.isSome_iff_ne_none] using hfull slot hslot
  rw [placeFor, hnone]
  rfl

/-- Settles O27, by the least key among the settled entries (`leastKeyed_of_least`). -/
theorem placeForANewEntry : Obligations.PlaceForANewEntry := by
  intro heard settled
  refine ⟨fun i => placeFor_of_free, fun hfull => ⟨fun i e hi hleast => ?_, fun hnone => ?_⟩⟩
  · have hleastKeyed : leastKeyed settledKey heard = some (i, e.firstHeard) := by
      refine leastKeyed_of_least settledKey heard (entryAt_eq_some.1 hi.1)
        (settledKey_eq_some.2 ⟨e, rfl, hi.2, rfl⟩) fun j slot k hj hk => ?_
      obtain ⟨f, rfl, hf, rfl⟩ := settledKey_eq_some.1 hk
      exact hleast j f ⟨entryAt_eq_some.2 hj, hf⟩
    rw [placeFor_of_full hfull, hleastKeyed]
    rfl
  · have hleastKeyed : leastKeyed settledKey heard = none := by
      refine (leastKeyed_none_iff _ _).2 fun slot hslot => ?_
      rw [← Option.not_isSome_iff_eq_none]
      intro hsome
      obtain ⟨k, hk⟩ := Option.isSome_iff_exists.1 hsome
      obtain ⟨f, rfl, hf, -⟩ := settledKey_eq_some.1 hk
      obtain ⟨j, hj⟩ := List.getElem?_of_mem hslot
      exact hnone j f ⟨entryAt_eq_some.2 hj, hf⟩
    rw [placeFor_of_full hfull, hleastKeyed]
    rfl

/-! ## The offer (R49, R52 to R55) -/

section
variable {s : State} {i : Nat} {e : HeardEntry} {copy : List Byte} {received tick dueTo : Nat} {due : Nat → Prop}

/-- The earliest entry among the due ones is the one chosen (R53). -/
theorem chosenEntry_of_least {limit : Nat} (hdue : ∀ t, t ≤ limit ↔ due t) (he : entryAt s.relay.heard i = some e)
    (hr : e.relay = .pending copy received tick) (ht : due tick)
    (hleast : ∀ j f c r d, entryAt s.relay.heard j = some f ∧ f.relay = .pending c r d → due d →
      tick < d ∨ tick = d ∧ i ≤ j) : chosenEntry limit s.relay.heard = some i :=
  chosenEntry_eq he hr ((hdue tick).2 ht) fun j f c r d hf hfr hd => hleast j f c r d ⟨hf, hfr⟩ ((hdue d).1 hd)

/-- What an offer that is taken leaves: the copy on its way, its entry SENDING, every other entry as it was. -/
theorem State.transmit_spec (he : entryAt s.relay.heard i = some e) :
    let t := (s.setRelay { s.relay with dueTo := dueTo }).transmit i e copy received
    t.line = { s.line with slot := .sending (relayedCopy copy (s.elapsed - received)) s.elapsed, indication := .busy,
                           receiver := .off } ∧
    entryAt t.relay.heard i = some { e with relay := .sending copy received } ∧
    (∀ j, j ≠ i → entryAt t.relay.heard j = entryAt s.relay.heard j) ∧
    t.relay = { s.relay with heard := t.relay.heard, access := .transmitting, dueTo := dueTo } ∧
    t.relay.heard.length = s.relay.heard.length ∧ s.keepsAllBut [.line, .relay] t := by
  intro t
  have hheard : t.relay.heard = s.relay.heard.set i (some { e with relay := .sending copy received }) := rfl
  refine ⟨rfl, ?_, fun j hj => ?_, rfl, ?_, ?_⟩
  · rw [hheard, entryAt_set, if_pos ⟨rfl, entryAt_lt he⟩]
  · rw [hheard, entryAt_set, if_neg fun h => hj h.1]
  · rw [hheard, List.length_set]
  · exact ((s.setRelay_frame _).mono (by decide)).trans (State.transmit_frame i e copy received _)

end

theorem State.fallDue_eq (s : State) : s.fallDue = s.setRelay { s.relay with dueTo := s.elapsed } := rfl

theorem State.endBackoff_of_early {s : State} {ends : Nat} (ha : s.relay.access = .backoff ends) (h : s.elapsed < ends) :
    s.endBackoff = s := by
  unfold State.endBackoff
  rw [ha]
  exact if_neg (Nat.not_le.2 h)

theorem State.endBackoff_of_none_due {s : State} {ends : Nat} (ha : s.relay.access = .backoff ends)
    (h : ends ≤ s.elapsed) (hn : ¬ s.someEntryDue) : s.endBackoff = s.setAccess .lineQuiet := by
  unfold State.endBackoff
  rw [ha]
  dsimp only
  rw [if_pos h, s.chosenEntry_dueBy_none.2 hn]

theorem State.endBackoff_of_chosen {s : State} {ends i : Nat} (ha : s.relay.access = .backoff ends)
    (h : ends ≤ s.elapsed) (hi : chosenEntry s.dueBy s.relay.heard = some i) : s.endBackoff = s.offer := by
  unfold State.endBackoff
  rw [ha]
  dsimp only
  rw [if_pos h, hi]

theorem State.not_takes {l : Line} (h : l.slot ≠ .idle ∨ l.indication = .busy) :
    ¬ (l.slot = .idle ∧ l.indication = .quiet) := by
  rintro ⟨hs, hi⟩
  obtain h | h := h
  · exact h hs
  · rw [h] at hi
    cases hi

/-- Settles O24: each way to an offer ends in `State.offer`, made for the entry that `chosenEntry_of_least` chooses. -/
theorem offersAreTakenOrRefused : Obligations.OffersAreTakenOrRefused := by
  intro s cfg hrun waits offered
  have hoffered : ∀ (cmd : Instr) (due : Nat → Prop) (dueTo : Nat),
      (∀ t, t ≤ (s.setRelay { s.relay with dueTo := dueTo }).dueBy ↔ due t) →
      (∀ i, chosenEntry (s.setRelay { s.relay with dueTo := dueTo }).dueBy s.relay.heard = some i →
        s.after cmd = (s.setRelay { s.relay with dueTo := dueTo }).offer) → offered cmd due dueTo := by
    intro cmd due dueTo hdue hcmd i e copy received tick ⟨he, hr⟩ ht hleast
    have hchosen := chosenEntry_of_least hdue he hr ht hleast
    refine ⟨fun htakes => ⟨_, exec_eq_next _ s, ?_⟩, fun hrefuses => ?_⟩
    · rw [hcmd i hchosen, State.offer_of_taken hchosen he hr htakes]
      exact State.transmit_spec he
    · rw [exec_eq_next, hcmd i hchosen, State.offer_of_refused hchosen he hr (State.not_takes hrefuses)]
      rfl
  have hplace : ∀ i, s.placeDue i = true ↔ ∃ e copy received tick, waits i e copy received tick ∧ tick ≤ s.elapsed :=
    fun i => by simp only [s.placeDue_iff i, waits, and_assoc]
  refine ⟨fun i hdue => ⟨fun hq => ?_, fun hq => ?_⟩, fun i hnot => ?_, fun ends hb => ⟨fun h => ?_, fun h hn => ?_,
    fun h => ?_⟩⟩
  · refine hoffered _ _ _ (fun t => ?_) fun j _ => ?_
    · rw [← State.fallDue_eq, State.fallDue_dueBy]
    · rw [State.after_entryFallsDue, State.whenConfigured_eq hrun, if_pos ((hplace i).2 hdue), if_pos hq, State.fallDue_eq]
  · rw [exec_eq_next, State.after_entryFallsDue, State.whenConfigured_eq hrun, if_pos ((hplace i).2 hdue), if_neg hq,
      State.fallDue_eq]
  · have hplace' : ¬ s.placeDue i = true := fun h => by
      obtain ⟨e, copy, received, tick, hw, ht⟩ := (hplace i).1 h
      exact absurd ht (Nat.not_le.2 (hnot e copy received tick hw))
    rw [exec_eq_next, State.after_entryFallsDue, State.whenConfigured_eq hrun, if_neg hplace']
  · refine hoffered _ _ _ (fun t => s.le_dueBy t) fun j hj => ?_
    rw [State.after_backoffEnd, State.whenConfigured_eq hrun]
    exact State.endBackoff_of_chosen hb h hj
  · rw [exec_eq_next, State.after_backoffEnd, State.whenConfigured_eq hrun, State.endBackoff_of_none_due hb h hn]
    rfl
  · rw [exec_eq_next, State.after_backoffEnd, State.whenConfigured_eq hrun, State.endBackoff_of_early hb h]

/-! ## The end of a transmission, and expiry (R13, R56, R58) -/

theorem State.completeRelay_of_sending {cfg : Configuration} {s : State} {i : Nat} {e : HeardEntry} {stored : List Byte}
    {received : Nat} (he : entryAt s.relay.heard i = some e) (hr : e.relay = .sending stored received)
    (hone : ∀ j f c r, entryAt s.relay.heard j = some f → f.relay = .sending c r → j = i) : s.completeRelay cfg =
      ((s.count .relayed).settlePlace cfg i { e with relay := .relayed }).setAccess .lineBusy := by
  have hplace := sendingPlace_eq_some he hr fun j f c r hf hfr => (hone j f c r hf hfr).ge
  unfold State.completeRelay
  rw [hplace]
  dsimp only
  rw [he]

theorem State.endTransmission_of_early {cfg : Configuration} {s : State} {copy : List Byte} {start : Nat}
    (hslot : s.line.slot = .sending copy start) (h : s.elapsed < start + 20) : s.endTransmission cfg = s := by
  unfold State.endTransmission
  rw [hslot]
  exact if_neg (Nat.not_le.2 h)

theorem State.endTransmission_of_late {cfg : Configuration} {s : State} {copy : List Byte} {start : Nat}
    (hslot : s.line.slot = .sending copy start) (h : start + 20 ≤ s.elapsed) : s.endTransmission cfg =
      (s.setLine { s.line with slot := .idle, receiver := .listening,
                               cleanFrom := max s.line.cleanFrom s.elapsed }).completeRelay cfg := by
  unfold State.endTransmission
  rw [hslot]
  exact if_pos h

/-- Settles O26, by `State.completeRelay_of_sending` and `expired_iff`. -/
theorem entriesSettleAndExpire : Obligations.EntriesSettleAndExpire := by
  refine ⟨fun s cfg copy start hrun hslot => ⟨fun hearly => ?_, fun i e stored received hlate he hr hone => ?_⟩,
    fun s cfg i e hrun he => ⟨fun hsettled hold => ?_, fun hkept => ?_⟩⟩
  · rw [exec_eq_next, State.after_transmissionCompletion, State.whenConfigured_eq hrun]
    rw [State.endTransmission_of_early hslot hearly]
  · refine ⟨_, exec_eq_next _ s, ?_⟩
    set free : Line := { s.line with slot := .idle, receiver := .listening, cleanFrom := max s.line.cleanFrom s.elapsed }
    have hafter : s.after .transmissionCompletion =
        (((s.setLine free).count .relayed).settlePlace cfg i { e with relay := .relayed }).setAccess .lineBusy := by
      rw [State.after_transmissionCompletion, State.whenConfigured_eq hrun, State.endTransmission_of_late hslot hlate]
      exact State.completeRelay_of_sending (s := s.setLine free) he hr hone
    rw [hafter]
    refine ⟨rfl, rfl, rfl, List.length_set .., ?_, fun j hj => ?_, ?_⟩
    · refine (entryAt_set _ _ _ _).trans ((if_pos ⟨rfl, entryAt_lt he⟩).trans ?_)
      simp only [HeardEntry.forgotten_iff]
      rfl
    · exact (entryAt_set _ _ _ _).trans (if_neg fun h => hj h.1)
    · rw [← hafter]
      exact s.after_frame .transmissionCompletion
  · have hexpired := (expired_iff cfg s.elapsed _).2 ⟨e, he, hsettled, hold⟩
    refine ⟨_, exec_eq_next _ s, ?_⟩
    rw [State.after_entryExpiry, State.whenConfigured_eq hrun, if_pos hexpired]
    exact ⟨(entryAt_set _ _ _ _).trans (if_pos ⟨rfl, entryAt_lt he⟩),
      fun j hj => (entryAt_set _ _ _ _).trans (if_neg fun h => hj h.1), rfl, List.length_set ..,
      s.writePlace_frame i none⟩
  · have hexpired : ¬ expired cfg s.elapsed (entryAt s.relay.heard i) = true := fun h => by
      obtain ⟨f, hf, hsettled, hold⟩ := (expired_iff _ _ _).1 h
      obtain rfl : e = f := Option.some.inj (he.symm.trans hf)
      obtain hk | hk := hkept
      · simp [hk] at hsettled
      · exact absurd hold (Nat.not_le.2 hk)
    rw [exec_eq_next, State.after_entryExpiry, State.whenConfigured_eq hrun, if_neg hexpired]

end Sys2Proof.Machine
end

section
/-! PROOF. The frame check, the link margin, the relayed copy, the serial window, the rebuilt Origin Table, and what a
read attempt puts on the bus. -/

namespace Sys2Proof.Machine

/-! ## The frame check (R6) -/

theorem crcBit_eq (r : Word) : crcBit r = (r <<< 1) ^^^ if r.msb then 0x1021#16 else 0 := by
  unfold crcBit
  split_ifs <;> simp

/-- A step of the check is linear. -/
theorem crcBit_xor (a b : Word) : crcBit (a ^^^ b) = crcBit a ^^^ crcBit b := by
  have hfeedback : ∀ x y : Bool, (if x ^^ y then 0x1021#16 else 0) =
      (if x then 0x1021#16 else 0) ^^^ (if y then 0x1021#16 else 0) := by decide
  rw [crcBit_eq, crcBit_eq, crcBit_eq, BitVec.shiftLeft_xor_distrib, BitVec.msb_xor, hfeedback]
  ac_rfl

/-- A step of the check loses nothing. -/
theorem crcBit_eq_zero_iff (r : Word) : crcBit r = 0 ↔ r = 0 := by
  refine ⟨fun h => ?_, fun h => by subst h; decide⟩
  have hr := r.isLt
  have hshift : (r <<< 1).toNat = 2 * r.toNat % 65536 := by
    rw [BitVec.toNat_shiftLeft, Nat.shiftLeft_eq]
    omega
  have hmsb : r.msb = decide (32768 ≤ r.toNat) := by
    rw [BitVec.msb_eq_decide]
  rw [crcBit_eq] at h
  refine BitVec.eq_of_toNat_eq ?_
  cases hm : r.msb with
  | true =>
    rw [hm, if_pos rfl] at h
    have h4129 := congrArg BitVec.toNat (BitVec.xor_eq_zero_iff.1 h)
    rw [hshift] at h4129
    have : (0x1021#16).toNat = 4129 := rfl
    omega
  | false =>
    rw [hm] at h hmsb
    have hzero := congrArg BitVec.toNat (BitVec.xor_eq_zero_iff.1 h)
    rw [hshift] at hzero
    have : (if false = true then 0x1021#16 else 0 : Word).toNat = 0 := rfl
    have hsmall : r.toNat < 32768 := by simpa using hmsb.symm
    have : (0 : Word).toNat = 0 := rfl
    omega

/-- So many steps of the check. -/
def crcBits (n : Nat) (r : Word) : Word := crcBit^[n] r

theorem crcBits_xor (n : Nat) (a b : Word) : crcBits n (a ^^^ b) = crcBits n a ^^^ crcBits n b := by
  induction n generalizing a b with
  | zero => rfl
  | succ n ih => exact (congrArg (crcBits n) (crcBit_xor a b)).trans (ih _ _)

theorem crcBits_eq_zero_iff (n : Nat) (r : Word) : crcBits n r = 0 ↔ r = 0 := by
  induction n generalizing r with
  | zero => rfl
  | succ n ih => exact (ih (crcBit r)).trans (crcBit_eq_zero_iff r)

/-- A number that the steps do not push out of the register is shifted. -/
theorem crcBits_toNat (n : Nat) (r : Word) (h : 2 ^ n * r.toNat < 65536) : (crcBits n r).toNat = 2 ^ n * r.toNat := by
  induction n generalizing r with
  | zero => simp [crcBits]
  | succ n ih =>
    have hpos : 1 ≤ 2 ^ n := Nat.one_le_two_pow
    have hle : r.toNat ≤ 2 ^ n * r.toNat := Nat.le_mul_of_pos_left _ hpos
    rw [pow_succ, mul_assoc, mul_left_comm] at h
    have hstep : (crcBit r).toNat = 2 * r.toNat := by
      have hm : r.msb = false := by
        rw [BitVec.msb_eq_decide]
        simpa using (by omega : r.toNat < 32768)
      rw [crcBit, hm, if_neg Bool.false_ne_true, BitVec.toNat_shiftLeft, Nat.shiftLeft_eq]
      omega
    calc (crcBits (n + 1) r).toNat = (crcBits n (crcBit r)).toNat := rfl
      _ = 2 ^ n * (crcBit r).toNat := ih _ (by rw [hstep, mul_left_comm]; exact h)
      _ = 2 ^ (n + 1) * r.toNat := by rw [hstep, pow_succ, mul_assoc]

theorem crcBits_low_byte (b : Byte) : crcBits 8 (wordOf 0#8 b) = wordOf b 0#8 := by
  have hlow : (wordOf 0#8 b).toNat = b.toNat := by simp [wordOf_toNat]
  have hb := b.isLt
  refine BitVec.eq_of_toNat_eq ?_
  rw [crcBits_toNat 8 _ (by rw [hlow]; omega), hlow, wordOf_toNat]
  rfl

theorem wordOf_xor (hi lo : Byte) : wordOf hi 0#8 ^^^ wordOf 0#8 lo = wordOf hi lo := by
  refine (BitVec.xor_append (w := 8) (v := 8)).trans ?_
  rw [BitVec.xor_zero, BitVec.zero_xor]
  rfl

/-- Two bytes taken into the register leave 0 exactly when they are what it held. -/
theorem crcByte_crcByte_eq_zero_iff (r : Word) (hi lo : Byte) :
    crcByte (crcByte r hi) lo = 0 ↔ r = wordOf hi lo := by
  have hword : r ^^^ wordOf hi 0#8 ^^^ wordOf 0#8 lo = r ^^^ wordOf hi lo := by
    rw [BitVec.xor_assoc, wordOf_xor]
  calc crcByte (crcByte r hi) lo = 0
    _ ↔ crcBits 8 (crcBits 8 (r ^^^ wordOf hi 0#8) ^^^ crcBits 8 (wordOf 0#8 lo)) = 0 := by
        rw [crcBits_low_byte]
        rfl
    _ ↔ r ^^^ wordOf hi lo = 0 := by
        rw [← crcBits_xor, crcBits_eq_zero_iff, crcBits_eq_zero_iff, hword]
    _ ↔ r = wordOf hi lo := BitVec.xor_eq_zero_iff

/-- Settles O18: the last two bytes of a copy clear the register exactly when they are its check
(`crcByte_crcByte_eq_zero_iff`). -/
theorem frameCheckIsTheCrc : Obligations.FrameCheckIsTheCrc := by
  refine ⟨by decide +kernel, fun copy hlen => ?_⟩
  have hdrop : copy.drop 30 = [byteAt copy 30, byteAt copy 31] := by
    rw [← List.getElem_cons_drop (by omega : 30 < copy.length), ← List.getElem_cons_drop (by omega : 31 < copy.length),
      List.drop_eq_nil_of_le (by omega), byteAt_eq_getElem (by omega), byteAt_eq_getElem (by omega)]
  have hcrc : crc16 copy = crcByte (crcByte (crc16 (copy.take 30)) (byteAt copy 30)) (byteAt copy 31) := by
    conv_lhs => rw [← List.take_append_drop 30 copy, hdrop, crc16, List.foldl_append]
    rfl
  rw [hcrc, crcByte_crcByte_eq_zero_iff]
  rw [checkPasses, decide_eq_true_iff]
  rfl

/-! ## The link margin (R7) -/

/-- Settles O19: the margin is the floor of the excess in 3 dB steps, clamped. -/
theorem linkMarginCountsThreeDecibelSteps : Obligations.LinkMarginCountsThreeDecibelSteps := by
  intro noise level
  have hclamped : ∀ x, linkMargin noise x = (max 0 (min 15 ((x - (noise + 6)) / 3).floor)).toNat := fun _ => rfl
  obtain ⟨q, hq⟩ : ∃ q : Rat, q = (level - (noise + 6)) / 3 := ⟨_, rfl⟩
  have hmargin : linkMargin noise level = (max 0 (min 15 q.floor)).toNat := hq ▸ hclamped level
  have hlevel : level - (noise + 6) = 3 * q := by rw [hq]; ring
  have hle : (q.floor : Rat) ≤ q := Rat.floor_le q
  have hlt : q < q.floor + 1 := by exact_mod_cast Rat.lt_floor_add_one q
  refine ⟨?_, fun h => ?_, fun h => ?_, fun hlow hhigh => ?_, ?_⟩
  · rw [hmargin]
    omega
  · have hfloor : q.floor ≤ 0 := by
      have : (q.floor : Rat) ≤ 0 := by linarith
      exact_mod_cast this
    rw [hmargin]
    omega
  · have hfloor : 15 ≤ q.floor := Rat.le_floor_iff.2 (by push_cast; linarith)
    rw [hmargin]
    omega
  · have hnonneg : 0 ≤ q.floor := Rat.le_floor_iff.2 (by push_cast; linarith)
    have hsmall : q.floor < 15 := by
      have : (q.floor : Rat) < 15 := by linarith
      exact_mod_cast this
    have heq : (linkMargin noise level : Int) = q.floor := by
      rw [hmargin]
      omega
    have hcast : (linkMargin noise level : Rat) = q.floor := by exact_mod_cast congrArg (Int.cast : Int → Rat) heq
    rw [hcast, hlevel]
    exact ⟨by linarith, by linarith⟩
  · have hsix : (noise + 6 + 20 - (noise + 6)) / 3 = (20 / 3 : Rat) := by ring
    rw [hclamped, hsix]
    decide +kernel

end Sys2Proof.Machine
end

section
/-! PROOF. The serial window, the relayed copy, the rebuilt Origin Table and the read attempt. -/

namespace Sys2Proof.Machine

/-! ## The serial window (R29) -/

section
variable {w : SerialWindow} {serial : Word}

theorem serial_eq_iff : serial = w.highest ↔ (serial - w.highest).toNat = 0 := by
  constructor
  · rintro rfl
    simp
  · intro h
    exact sub_eq_zero.1 (BitVec.eq_of_toNat_eq h)

theorem classify_of_equal (h : (serial - w.highest).toNat = 0) : classify (some w) serial = .duplicate := by
  unfold classify
  dsimp only
  rw [if_pos (serial_eq_iff.2 h)]

theorem classify_of_newer (h1 : 1 ≤ (serial - w.highest).toNat) (h2 : (serial - w.highest).toNat ≤ 32767) :
    classify (some w) serial = .new := by
  unfold classify
  dsimp only
  rw [if_neg fun h => by have := serial_eq_iff.1 h; omega, if_pos ((newer_iff _ _).2 ⟨h1, h2⟩)]

/-- A serial at most 32 below the newest is told by the set of those seen. -/
theorem classify_of_recent (h : 65536 - 32 ≤ (serial - w.highest).toNat) : classify (some w) serial =
    if 65536 - (serial - w.highest).toNat ∈ w.seen then .duplicate else .new := by
  unfold classify
  dsimp only
  rw [if_neg fun he => by have := serial_eq_iff.1 he; omega,
    if_neg fun hn => by have := (newer_iff _ _).1 hn; omega, if_pos (by unfold olderBy; omega)]
  simp only [List.contains_iff_mem, olderBy]

theorem classify_of_stale (h1 : 32768 ≤ (serial - w.highest).toNat) (h2 : (serial - w.highest).toNat < 65536 - 32) :
    classify (some w) serial = .stale := by
  unfold classify
  dsimp only
  rw [if_neg fun he => by have := serial_eq_iff.1 he; omega,
    if_neg fun hn => by have := (newer_iff _ _).1 hn; omega, if_neg (by unfold olderBy; omega)]

theorem acceptSerial_of_newer (h1 : 1 ≤ (serial - w.highest).toNat) (h2 : (serial - w.highest).toNat ≤ 32767) :
    acceptSerial (some w) serial = ⟨serial, shiftSeen (serial - w.highest).toNat w.seen⟩ := by
  unfold acceptSerial
  dsimp only
  rw [if_pos ((newer_iff _ _).2 ⟨h1, h2⟩)]

theorem acceptSerial_of_recent (h : 32768 ≤ (serial - w.highest).toNat) : acceptSerial (some w) serial =
    { w with seen := insertDistance (65536 - (serial - w.highest).toNat) w.seen } := by
  unfold acceptSerial
  dsimp only
  rw [if_neg fun hn => by have := (newer_iff _ _).1 hn; omega]
  rfl

/-- A serial just accepted is no longer new. -/
theorem classify_acceptSerial (hnew : classify (some w) serial = .new) :
    classify (some (acceptSerial (some w) serial)) serial = .duplicate := by
  have hlt := (serial - w.highest).isLt
  by_cases h0 : (serial - w.highest).toNat = 0
  · simp [classify_of_equal h0] at hnew
  by_cases hn : (serial - w.highest).toNat ≤ 32767
  · rw [acceptSerial_of_newer (by omega) hn]
    exact classify_of_equal (by simp)
  · by_cases hr : 65536 - 32 ≤ (serial - w.highest).toNat
    · rw [acceptSerial_of_recent (by omega)]
      refine (classify_of_recent (w := ⟨w.highest, insertDistance (65536 - (serial - w.highest).toNat) w.seen⟩)
        hr).trans (if_pos ?_)
      exact mem_insertDistance.2 (.inl rfl)
    · simp [classify_of_stale (Nat.not_le.1 hn) (Nat.not_le.1 hr)] at hnew

end

/-- Settles O23: the distance of the serial above the newest one, as a number below 65536, decides. -/
theorem serialWindowRule : Obligations.SerialWindowRule := by
  refine ⟨fun serial => ⟨rfl, rfl⟩, ?_⟩
  intro w serial hw d
  refine ⟨classify_of_equal, fun h1 h2 => ?_, fun h hseen => ?_, fun h hseen => ?_, classify_of_stale, fun hnew => ?_⟩
  · rw [acceptSerial_of_newer h1 h2]
    refine ⟨classify_of_newer h1 h2, rfl, fun k => mem_shiftSeen.trans ?_⟩
    rw [and_comm]
    exact and_congr_right fun _ => or_congr_right (exists_congr fun j => and_congr_right fun _ => eq_comm)
  · rw [classify_of_recent h, if_pos hseen]
  · rw [classify_of_recent h, if_neg hseen, acceptSerial_of_recent (by omega)]
    exact ⟨rfl, rfl, fun k => mem_insertDistance⟩
  · exact ⟨acceptSerial_sound (by simpa using hw) hnew, classify_acceptSerial hnew⟩

/-! ## The relayed copy (R11, R54) -/

theorem byteAt_set (bytes : List Byte) (i j : Nat) (x : Byte) :
    byteAt (bytes.set i x) j = if i = j ∧ i < bytes.length then x else byteAt bytes j := by
  unfold byteAt
  rw [List.getD_eq_getElem?_getD, List.getD_eq_getElem?_getD, List.getElem?_set]
  by_cases hij : i = j
  · subst hij
    by_cases hi : i < bytes.length <;> simp [hi]
  · simp [hij]

theorem bytesOf_spec (w : Word) : ∃ hi lo, bytesOf w = [hi, lo] ∧ wordOf hi lo = w := by
  refine ⟨_, _, rfl, BitVec.eq_of_toNat_eq ?_⟩
  have hw := w.isLt
  rw [wordOf_toNat, BitVec.extractLsb'_toNat, BitVec.extractLsb'_toNat, Nat.shiftRight_eq_div_pow,
    Nat.shiftRight_eq_div_pow]
  omega

theorem toNat_nibbles (hi lo : Nat) : (BitVec.ofNat 4 hi ++ BitVec.ofNat 4 lo : Byte).toNat = 16 * (hi % 16) + lo % 16 := by
  have hlt : (BitVec.ofNat 4 lo).toNat < 2 ^ 4 := (BitVec.ofNat 4 lo).isLt
  refine (BitVec.toNat_append (BitVec.ofNat 4 hi) (BitVec.ofNat 4 lo)).trans ?_
  rw [← Nat.shiftLeft_add_eq_or_of_lt hlt, Nat.shiftLeft_eq, BitVec.toNat_ofNat, BitVec.toNat_ofNat]
  omega

/-- The first 30 bytes of a relayed copy. -/
def relayedBody (stored : List Byte) (residence : Nat) : List Byte :=
  let age := BitVec.ofNat 16 (min Config.most16 (ageOf stored + Config.frameTicks + residence))
  ((stored.set 4 (BitVec.ofNat 4 (budgetOf stored - 1) ++ BitVec.ofNat 4 (min 15 (hopsOf stored + 1)))).set 5
    (byteAt (bytesOf age) 0)).set 6 (byteAt (bytesOf age) 1)

theorem relayedCopy_eq (stored : List Byte) (residence : Nat) : relayedCopy stored residence =
    relayedBody stored residence ++ bytesOf (crc16 (relayedBody stored residence)) := rfl

section
variable {stored : List Byte} {residence : Nat}

theorem length_relayedBody (h : stored.length = 30) : (relayedBody stored residence).length = 30 := by
  simp [relayedBody, h]

theorem byteAt_relayedCopy (h : stored.length = 30) {k : Nat} (hk : k < 30) :
    byteAt (relayedCopy stored residence) k = byteAt (relayedBody stored residence) k := by
  rw [relayedCopy_eq]
  unfold byteAt
  exact List.getD_append _ _ _ _ (by rw [length_relayedBody h]; exact hk)

theorem relayedCopy_check (h : stored.length = 30) : (relayedCopy stored residence).length = 32 ∧
    checkPasses (relayedCopy stored residence) = true := by
  have hlen := length_relayedBody (residence := residence) h
  obtain ⟨hi, lo, hbytes, hword⟩ := bytesOf_spec (crc16 (relayedBody stored residence))
  rw [relayedCopy_eq, hbytes]
  refine ⟨by simp [hlen], ?_⟩
  rw [checkPasses, decide_eq_true_iff, List.take_append_of_le_length hlen.ge, List.take_of_length_le hlen.le, ← hword,
    wordAt]
  have hhi : byteAt (relayedBody stored residence ++ [hi, lo]) 30 = hi := by
    simp [byteAt, hlen]
  have hlo : byteAt (relayedBody stored residence ++ [hi, lo]) (30 + 1) = lo := by
    simp [byteAt, hlen]
  rw [hhi, hlo]

/-- The age of a relayed copy is the word put into its bytes 5 and 6. -/
theorem ageOf_relayedCopy (h : stored.length = 30) : ageOf (relayedCopy stored residence) =
    min 65535 (ageOf stored + 20 + residence) := by
  obtain ⟨hi, lo, hbytes, hword⟩ := bytesOf_spec
    (BitVec.ofNat 16 (min Config.most16 (ageOf stored + Config.frameTicks + residence)))
  have h5 : byteAt (relayedCopy stored residence) 5 = hi := by
    rw [byteAt_relayedCopy h (by decide), relayedBody, byteAt_set, if_neg (by simp), byteAt_set, if_pos (by simp [h]),
      hbytes]
    rfl
  have h6 : byteAt (relayedCopy stored residence) (5 + 1) = lo := by
    rw [byteAt_relayedCopy h (by decide), relayedBody, byteAt_set, if_pos (by simp [h]), hbytes]
    rfl
  rw [ageOf, nat16At, wordAt, h5, h6, hword, BitVec.toNat_ofNat, Nat.mod_eq_of_lt]
  · rfl
  · exact (Nat.min_le_left _ _).trans_lt (by decide)

end

theorem ageOf_le (copy : List Byte) : ageOf copy ≤ 65535 := Nat.le_of_lt_succ (wordAt copy 5).isLt

/-- Settles O25, byte by byte. -/
theorem relayedCopyFields : Obligations.RelayedCopyFields := by
  intro stored residence hlen hbudget copy
  obtain ⟨hlen32, hcheck⟩ := relayedCopy_check (residence := residence) hlen
  have hage := ageOf_relayedCopy (residence := residence) hlen
  have hfourth : byteAt copy 4 =
      BitVec.ofNat 4 (budgetOf stored - 1) ++ BitVec.ofNat 4 (min 15 (hopsOf stored + 1)) := by
    rw [byteAt_relayedCopy hlen (by decide), relayedBody, byteAt_set, if_neg (by simp), byteAt_set,
      if_neg (by simp), byteAt_set, if_pos (by simp [hlen])]
  have hmost : budgetOf stored ≤ 15 := by
    rw [budgetOf, bitsOf_eq]
    omega
  refine ⟨hlen32, hcheck, ?_, ?_, hage, ?_, fun k hk h4 h5 h6 => ?_⟩
  · rw [budgetOf, hfourth, bitsOf_eq, toNat_nibbles]
    omega
  · rw [hopsOf, hfourth, bitsOf_eq, toNat_nibbles]
    omega
  · have := ageOf_le stored
    rw [hage]
    omega
  · rw [byteAt_relayedCopy hlen hk, relayedBody, byteAt_set, if_neg fun h => h6 h.1.symm, byteAt_set,
      if_neg fun h => h5 h.1.symm, byteAt_set, if_neg fun h => h4 h.1.symm]

/-! ## The rebuilt Origin Table (R21, R22) -/

/-- The ids in the order of first appearance, after those kept already. -/
theorem foldl_kept_eq (ids kept : List Byte) :
    ids.foldl (fun kept id => if id ∈ kept then kept else kept ++ [id]) kept =
      kept ++ (distinctIds ids).filter (· ∉ kept) := by
  induction ids generalizing kept with
  | nil => simp [distinctIds]
  | cons x xs ih =>
    rw [List.foldl_cons, ih, distinctIds]
    by_cases hx : x ∈ kept
    · have hfilter : ∀ y ∈ distinctIds xs, (decide (y ∉ kept) && decide (y ≠ x)) = decide (y ∉ kept) := fun y _ => by
        by_cases hy : y = x <;> simp [hy, hx]
      rw [if_pos hx, List.filter_cons_of_neg (by simpa using hx), List.filter_filter, List.filter_congr hfilter]
    · rw [if_neg hx, List.filter_cons_of_pos (by simpa using hx), List.filter_filter, List.append_assoc,
        List.singleton_append]
      refine congrArg (kept ++ x :: ·) (List.filter_congr fun y _ => ?_)
      simp [not_or]

theorem head?_distinctIds (ids : List Byte) : (distinctIds ids).head? = ids.head? := by
  cases ids <;> rfl

/-- Settles O14: the rebuilt entries are the distinct ids, each with the window that `OriginTable.windowFor` finds. -/
theorem originTableFollowsItsOrigins : Obligations.OriginTableFollowsItsOrigins := by
  intro o ids t
  have hids : t.entries.map (·.id) = distinctIds ids := o.rebuild_ids ids
  refine ⟨?_, ?_, fun id => ?_, ?_, fun e he => ?_, fun e => ?_⟩
  · rw [hids, foldl_kept_eq]
    simp
  · rw [hids]
    exact distinctIds_nodup ids
  · rw [hids, mem_distinctIds]
  · rw [OriginTable.primary, ← List.head?_map, hids, head?_distinctIds]
  · obtain ⟨id, -, rfl⟩ := List.mem_map.1 he
    refine ⟨fun f hf => ?_, fun hn f hf => ?_, fun hn hd => ?_⟩
    · show o.windowFor id = f.window
      rw [OriginTable.windowFor, hf]
    · show o.windowFor id = f.window
      rw [OriginTable.windowFor, hn]
      exact (congrArg (Option.bind · OriginEntry.window) hf).trans rfl
    · show o.windowFor id = none
      rw [OriginTable.windowFor, hn]
      exact (congrArg (Option.bind · OriginEntry.window) hd).trans rfl
  · refine List.mem_filter.trans ?_
    rw [List.mem_append]
    simp [mem_distinctIds]

/-! ## The read attempt (R185) -/

theorem readActions_append (bytes : List Byte) (last : Byte) :
    readActions (bytes ++ [last]) = bytes.map (.receive · true) ++ [.receive last false] := by
  induction bytes with
  | nil => rfl
  | cons b bs ih =>
    rw [List.map_cons, List.cons_append, List.cons_append, ← ih]
    cases bs <;> rfl

theorem mem_readActions {x : BusAction} {bytes : List Byte} (h : x ∈ readActions bytes) :
    ∃ b ack, x = .receive b ack := by
  induction bytes with
  | nil => cases h
  | cons b bs ih =>
    cases bs with
    | nil => exact ⟨b, false, by simpa [readActions] using h⟩
    | cons c cs =>
      obtain rfl | h := List.mem_cons.1 h
      exacts [⟨b, true, rfl⟩, ih h]

/-- A byte of the word address is sent. -/
def BusAction.isSend : BusAction → Bool
  | .send _ => true
  | _ => false

/-- A clock pulse with SDA released. -/
def BusAction.isPulse : BusAction → Bool
  | .pulse => true
  | _ => false

/-- What follows the freeing of the bus. -/
def transfer (a : StoreAnswer) : List BusAction :=
  [.start, .address storeAddress false] ++
    (if !a.ackDeviceWrite then [.stop]
     else .send 0 :: (if !a.ackWordHigh then [.stop]
      else .send 0 :: (if !a.ackWordLow then [.stop]
       else [.repeatedStart, .address storeAddress true] ++
        (if !a.ackDeviceRead then [.stop] else readActions a.bytes ++ [.stop]))))

theorem attemptActions_of_held {a : StoreAnswer} (h : 9 < a.pulsesToFree) :
    attemptActions a = List.replicate 9 .pulse := by
  rw [attemptActions, if_pos h, Nat.min_eq_left h.le]

theorem attemptActions_of_free {a : StoreAnswer} (h : a.pulsesToFree ≤ 9) : attemptActions a =
    (if a.pulsesToFree = 0 then [] else List.replicate a.pulsesToFree .pulse ++ [.stop]) ++ transfer a := by
  rw [attemptActions, if_neg (Nat.not_lt.2 h), Nat.min_eq_right h]
  simp only [transfer, List.append_assoc]

theorem countP_readActions (p : BusAction → Bool) (hp : ∀ b ack, p (.receive b ack) = false) (bytes : List Byte) :
    (readActions bytes).countP p = 0 := by
  refine List.countP_eq_zero.2 fun x hx => ?_
  obtain ⟨b, ack, rfl⟩ := mem_readActions hx
  simp [hp]

theorem transfer_spec (a : StoreAnswer) : (∀ b, BusAction.send b ∈ transfer a → b = 0) ∧
    (transfer a).countP BusAction.isSend ≤ 2 ∧ (transfer a).countP BusAction.isPulse = 0 := by
  have hsend := countP_readActions BusAction.isSend (fun _ _ => rfl) a.bytes
  have hpulse := countP_readActions BusAction.isPulse (fun _ _ => rfl) a.bytes
  have hmem : ∀ b, BusAction.send b ∉ readActions a.bytes := fun b hb => by
    obtain ⟨c, ack, h⟩ := mem_readActions hb
    cases h
  unfold transfer
  split_ifs <;> simp [List.countP_cons, hsend, hpulse, hmem, BusAction.isSend, BusAction.isPulse]

theorem freeing_spec (n : Nat) (h : n ≤ 9) :
    let freeing : List BusAction := if n = 0 then [] else List.replicate n .pulse ++ [.stop]
    (∀ b, BusAction.send b ∉ freeing) ∧ freeing.countP BusAction.isSend = 0 ∧
      freeing.countP BusAction.isPulse ≤ 9 := by
  intro freeing
  by_cases hn : n = 0
  · simp [freeing, hn]
  · simp [freeing, hn, List.countP_replicate, h, BusAction.isSend, BusAction.isPulse]

/-- Settles O15: the bus is freed by pulses alone (`freeing_spec`), and the transfer sends the word address alone
(`transfer_spec`). -/
theorem readAttemptSendsOnlyTheAddress : Obligations.ReadAttemptSendsOnlyTheAddress := by
  intro a
  by_cases h9 : 9 < a.pulsesToFree
  · rw [attemptActions_of_held h9]
    refine ⟨by simp, by simp, by simp, fun _ => rfl, fun bytes last h => ?_⟩
    rw [attemptEnd, if_pos h9] at h
    cases h
  · have hle := Nat.not_lt.1 h9
    obtain ⟨fsend, fcount, fpulse⟩ := freeing_spec a.pulsesToFree hle
    obtain ⟨tsend, tcount, tpulse⟩ := transfer_spec a
    rw [attemptActions_of_free hle]
    refine ⟨fun b hb => ?_, ?_, ?_, fun h => ?_, fun bytes last h => ?_⟩
    · obtain hb | hb := List.mem_append.1 hb
      exacts [absurd hb (fsend b), tsend b hb]
    · change List.countP BusAction.isSend _ ≤ 2
      rw [List.countP_append]
      omega
    · change List.countP BusAction.isPulse _ ≤ 9
      rw [List.countP_append]
      omega
    · rw [attemptEnd, if_neg h9] at h
      split_ifs at h
    · rw [attemptEnd, if_neg h9] at h
      split_ifs at h with hack
      simp only [Bool.and_eq_true] at hack
      obtain ⟨⟨⟨h1, h2⟩, h3⟩, h4⟩ := hack
      have hread := readActions_append bytes last
      rw [← AttemptEnd.data.inj h] at hread
      have htransfer : transfer a = [.start, .address storeAddress false, .send 0, .send 0, .repeatedStart,
          .address storeAddress true] ++ bytes.map (.receive · true) ++ [.receive last false, .stop] := by
        simp [transfer, h1, h2, h3, h4, hread]
      exact ⟨_, by rw [htransfer, ← List.append_assoc, ← List.append_assoc]⟩

end Sys2Proof.Machine
end

section
/-! PROOF. What an accepted telegram meets: the three other actions of its acceptance, before and after its route
(chapter 2). -/

namespace Sys2Proof.Machine

/-! ## One event among several -/

/-- Whatever the order, some of the other events come before one event and the rest after it. -/
theorem State.inSomeOrder_split {R : State → State → Prop} {s : State} (pre post : List (State → State))
    (act : State → State) (refl : ∀ t, R t t) (trans : ∀ t u v, R t u → R u v → R t v)
    (h : ∀ a ∈ pre ++ post, ∀ t, R t (a t)) :
    ∃ u, R s.met u ∧ R (act u) (s.inSomeOrder (pre ++ act :: post)) := by
  have hperm : (arrange s.meeting (pre ++ act :: post)).Perm (act :: (pre ++ post)) :=
    (arrange_perm _ _).trans List.perm_middle
  obtain ⟨before, rest, hsplit⟩ := List.append_of_mem (hperm.mem_iff.2 List.mem_cons_self)
  have hothers : (before ++ rest).Perm (pre ++ post) :=
    ((List.perm_middle.symm.trans (hsplit ▸ hperm)).cons_inv)
  have hfold : ∀ acts : List (State → State), (∀ a ∈ acts, ∀ t, R t (a t)) → ∀ t, R t (acts.foldl (fun s a => a s) t) :=
    fun acts ha t => foldl_acts_keep (P := R t) acts (fun a hmem u hu => trans _ _ _ hu (ha a hmem u)) t (refl t)
  refine ⟨before.foldl (fun s a => a s) s.met,
    hfold before (fun a ha => h a (hothers.mem_iff.1 (List.mem_append_left _ ha))) _, ?_⟩
  rw [State.inSomeOrder, hsplit, List.foldl_append]
  exact hfold rest (fun a ha => h a (hothers.mem_iff.1 (List.mem_append_right _ ha))) _

/-! ## The three other actions of an acceptance -/

/-- What the window's update, the opened entry and the restarted silence countdown may change. -/
structure State.aside (s t : State) : Prop where
  frame : s.keepsAllBut [.meetings, .origins, .relay, .channels, .monitor, .status, .counters] t
  primary : t.origins.primary = s.origins.primary
  counters : t.counters = { s.counters with rxOk := t.counters.rxOk, relayDropped := t.counters.relayDropped }
  monitor : t.monitor = { s.monitor with
    silence := t.monitor.silence
    conditions := { s.monitor.conditions with silence := t.monitor.conditions.silence } }
  noted : s.status.mayNote t.status
  changed : t.monitor.conditions ≠ s.monitor.conditions → t.status.changePending = true
  quiet : s.monitor.conditions.silence = false →
    t.monitor.conditions.silence = false ∧ t.channels = s.channels ∧ t.status = s.status

namespace State.aside
variable {s t u : State}

theorem refl (s : State) : s.aside s where
  frame := .refl _ s
  primary := rfl
  counters := rfl
  monitor := rfl
  noted := ⟨rfl, rfl, id⟩
  changed h := absurd rfl h
  quiet h := ⟨h, rfl, rfl⟩

theorem trans (h : s.aside t) (h' : t.aside u) : s.aside u where
  frame := h.frame.trans h'.frame
  primary := h'.primary.trans h.primary
  counters := by rw [h'.counters, h.counters]
  monitor := by rw [h'.monitor, h.monitor]
  noted := ⟨h'.noted.1.trans h.noted.1, h'.noted.2.1.trans h.noted.2.1, fun hp => h'.noted.2.2 (h.noted.2.2 hp)⟩
  changed hne := by
    by_cases ht : t.monitor.conditions = s.monitor.conditions
    · exact h'.changed (ht ▸ hne)
    · exact h'.noted.2.2 (h.changed ht)
  quiet hq := by
    obtain ⟨hsilence, hchannels, hstatus⟩ := h.quiet hq
    obtain ⟨hsilence', hchannels', hstatus'⟩ := h'.quiet hsilence
    exact ⟨hsilence', hchannels'.trans hchannels, hstatus'.trans hstatus⟩

/-- Only some of the tables, and the two counters of an acceptance, have changed. -/
theorem of_frame (hf : s.keepsAllBut [.meetings, .origins, .relay, .counters] t)
    (hp : t.origins.primary = s.origins.primary)
    (hc : t.counters = { s.counters with rxOk := t.counters.rxOk, relayDropped := t.counters.relayDropped }) :
    s.aside t := by
  have hm : t.monitor = s.monitor := hf .monitor (by decide)
  have hstatus : t.status = s.status := hf .status (by decide)
  have hchannels : t.channels = s.channels := hf .channels (by decide)
  exact { frame := hf.mono (by decide), primary := hp, counters := hc, monitor := by rw [hm],
          noted := by rw [hstatus]; exact ⟨rfl, rfl, id⟩, changed := fun hne => absurd (by rw [hm]) hne,
          quiet := fun hq => ⟨by rw [hm]; exact hq, hchannels, hstatus⟩ }

end State.aside

section
variable (cfg : Configuration) (copy : List Byte) (margin : Nat) (s : State)

theorem OriginTable.accept_primary (o : OriginTable) (id : Byte) (serial : Word) :
    (o.accept id serial).primary = o.primary := by
  cases h : o.entries with
  | nil => simp [OriginTable.accept, OriginTable.primary, h]
  | cons e es =>
    simp only [OriginTable.accept, OriginTable.primary, h, List.map_cons, List.head?_cons, Option.map_some]
    split_ifs <;> rfl

theorem State.recordAcceptance_aside : s.aside (s.recordAcceptance copy) :=
  .of_frame ((s.recordAcceptance_frame copy).mono (by decide)) (OriginTable.accept_primary _ _ _) rfl

theorem State.openEntry_counters (receptionEnd : Nat) : (s.openEntry cfg copy margin receptionEnd).counters =
    match placeFor s.relay.heard with
    | none => s.counters.add .relayDropped 1
    | some _ => s.counters := by
  unfold State.openEntry
  cases placeFor s.relay.heard with
  | none => rfl
  | some i =>
    dsimp only
    split_ifs <;> rfl

theorem State.openEntry_aside (receptionEnd : Nat) : s.aside (s.openEntry cfg copy margin receptionEnd) := by
  have hf := s.openEntry_frame cfg copy margin receptionEnd
  refine .of_frame (hf.mono (by decide)) ?_ ?_
  · rw [(hf .origins (by decide) : _ = s.origins)]
  · rw [State.openEntry_counters]
    split <;> rfl

/-- An acceptance while SILENCE is inactive restarts the countdown and does nothing else (R150). -/
theorem State.restartSilence_of_inactive (h : s.monitor.conditions.silence = false) :
    s.restartSilence cfg = s.setMonitor { s.monitor with silence := cfg.silenceStart } :=
  State.setCondition_eq_self cfg _ h

theorem State.setCondition_status (k : Condition) (x : Bool) : (s.setCondition cfg k x).status =
    if s.monitor.conditions.get k = x then s.status else { s.status with changePending := true } := by
  unfold State.setCondition
  split_ifs
  · rfl
  · rw [State.onEachChannel_status]
    simp [State.noteChange]

theorem State.restartSilence_aside : s.aside (s.restartSilence cfg) := by
  have hm := s.restartSilence_monitor cfg
  have hf := s.restartSilence_frame cfg
  have hcounters : (s.restartSilence cfg).counters = s.counters := hf .counters (by decide)
  have hstatus : (s.restartSilence cfg).status = if s.monitor.conditions.silence = false then s.status
      else { s.status with changePending := true } := State.setCondition_status cfg _ _ _
  refine { frame := hf.mono (by decide), primary := ?_, counters := ?_, monitor := ?_, noted := ?_, changed := ?_,
           quiet := fun hq => ?_ }
  · rw [(hf .origins (by decide) : _ = s.origins)]
  · rw [hcounters]
  · rw [hm]
  · rw [hstatus]
    split_ifs
    exacts [⟨rfl, rfl, id⟩, ⟨rfl, rfl, fun _ => rfl⟩]
  · rw [hm, hstatus]
    intro hne
    split_ifs with hq
    · exact absurd (by rw [← hq]) hne
    · rfl
  · rw [State.restartSilence_of_inactive cfg s hq]
    exact ⟨hq, rfl, rfl⟩

theorem State.met_aside : s.aside s.met := .of_frame (s.met_frame.mono (by decide)) rfl rfl

/-- An accepted telegram is routed with some of the other actions of its acceptance before it and the others after
it (R30). -/
theorem State.accept_routed : ∃ u, s.aside u ∧ (u.route cfg copy).aside (s.accept cfg copy margin) := by
  obtain ⟨u, hu, ht⟩ := State.inSomeOrder_split (R := State.aside) (s := s)
    [State.recordAcceptance copy, State.openEntry cfg copy margin s.elapsed, State.restartSilence cfg] []
    (State.route cfg copy) .refl (fun _ _ _ => .trans) (by
      simp only [List.append_nil, List.forall_mem_cons, List.not_mem_nil, false_implies, implies_true, and_true]
      exact ⟨State.recordAcceptance_aside copy, fun t => t.openEntry_aside cfg copy margin s.elapsed,
        State.restartSilence_aside cfg⟩)
  exact ⟨u, s.met_aside.trans hu, ht⟩

end

/-! ## A reception's end -/

section
variable {s : State} {cfg : Configuration} {bytes : List Byte}

theorem State.after_receptionEnd_of_ends (hrun : s.runsWith cfg) (h : s.endsReception bytes) (levels : Rat) :
    s.after (.receptionEnd bytes levels) =
      s.endReception.filter cfg bytes (linkMargin s.line.noise (levels / 32)) := by
  obtain ⟨hlen, start, hr, hend⟩ := h
  have hlate : ([] : List Byte).length + bytes.length = 32 ∧ start + Config.frameTicks ≤ s.elapsed := ⟨by simpa using hlen, hend⟩
  rw [State.after_receptionEnd, State.whenConfigured_eq hrun]
  unfold State.receive
  rw [hr]
  dsimp only
  rw [if_pos hlate, List.nil_append, zero_add]

theorem State.filter_of_accepts {copy : List Byte} (h : s.accepts cfg copy) (margin : Nat) :
    s.filter cfg copy margin = s.accept cfg copy margin := by
  obtain ⟨hpass, hlookup, hage, e, he, hnew⟩ := h
  simp only [State.filter, State.filterSound, hpass, he, hlookup, hnew, if_true, if_neg (Nat.not_le.2 hage)]

theorem State.after_receptionEnd_of_accepts (hrun : s.runsWith cfg) (hend : s.endsReception bytes)
    (h : s.accepts cfg bytes) (levels : Rat) : s.after (.receptionEnd bytes levels) =
      s.endReception.accept cfg bytes (linkMargin s.line.noise (levels / 32)) := by
  rw [State.after_receptionEnd_of_ends hrun hend]
  exact State.filter_of_accepts (s := s.endReception) h _

/-- A reception's end and one counter: all that a discarded copy leaves. -/
theorem State.endReception_count (k : Counter) (s : State) :
    (s.endReception.count k).line = s.line.listeningAgain s.elapsed ∧
      (s.endReception.count k).counters = s.counters.add k 1 ∧
      s.keepsAllBut [.line, .counters] (s.endReception.count k) :=
  ⟨rfl, rfl, (s.endReception_frame.mono (by decide)).trans ((State.count_frame k _).mono (by decide))⟩

end

theorem OriginTable.find_eq_none {o : OriginTable} {id : Byte} :
    o.find id = none ↔ ∀ e ∈ o.entries, e.id ≠ id := by
  simp [OriginTable.find, List.find?_eq_none]

/-- Settles O20: each refusal ends in `State.count` (`State.endReception_count`). -/
theorem discardedCopiesOnlyCount : Obligations.DiscardedCopiesOnlyCount := by
  intro s cfg hrun counted
  have hcounted : ∀ i k, s.after i = s.endReception.count k → counted i k := fun i k h =>
    ⟨_, exec_eq_next i s, by rw [h]; exact s.endReception_count k⟩
  refine ⟨fun bytes sum start hr hlate => hcounted _ _ ?_, fun bytes levels hend => ?_⟩
  · rw [State.after_truncatedFrame, State.whenConfigured_eq hrun]
    unfold State.truncate
    rw [hr]
    exact if_pos hlate
  · have hafter := State.after_receptionEnd_of_ends hrun hend levels
    refine ⟨fun hfail => hcounted _ _ ?_, fun hpass hforeign => hcounted _ _ ?_, fun e hpass he hnone =>
      ⟨fun hage => hcounted _ _ ?_, fun hage hold => hcounted _ _ ?_⟩⟩
    · rw [hafter, State.filter, hfail]
      rfl
    · have hfind : s.endReception.origins.find (originOf bytes) = none := OriginTable.find_eq_none.2 hforeign
      simp only [hafter, State.filter, State.filterSound, hpass, hfind, if_true]
    · have he' : s.endReception.origins.find (originOf bytes) = some e := he
      have hnone' : lookup s.endReception.relay.heard (originOf bytes) (serialOf bytes) = none := hnone
      simp only [hafter, State.filter, State.filterSound, hpass, he', hnone', if_pos hage, if_true]
    · have he' : s.endReception.origins.find (originOf bytes) = some e := he
      have hnone' : lookup s.endReception.relay.heard (originOf bytes) (serialOf bytes) = none := hnone
      simp only [hafter, State.filter, State.filterSound, hpass, he', hnone', if_neg (Nat.not_le.2 hage), if_true]
      split
      next hnew => exact absurd hnew hold
      · rfl
      · rfl

/-! ## Echoes (R27, R45 to R48) -/

/-- What the place of an echoed entry holds afterwards, and what is counted. -/
theorem State.echo_spec {cfg : Configuration} {i : Nat} {copy : List Byte} {now : Nat} {s : State} {e : HeardEntry}
    (he : entryAt s.relay.heard i = some e) (ht : s.elapsed = now) :
    ∃ x, (s.echo cfg i copy now).relay = { s.relay with heard := s.relay.heard.set i x } ∧
      match e.relay with
      | .pending stored received due =>
        if min 15 (e.echoes + 1) < cfg.suppression then
          (s.echo cfg i copy now).counters = s.counters.add .echoes 1 ∧
          x = some { e with
            echoes := min 15 (e.echoes + 1)
            relay := if budgetOf stored < budgetOf copy then .pending (copy.take 30) now due
              else .pending stored received due }
        else
          (s.echo cfg i copy now).counters = (s.counters.add .echoes 1).add .suppressed 1 ∧
          x = (if e.firstHeard + 100 * cfg.heardMemory ≤ now then none
            else some { e with echoes := min 15 (e.echoes + 1), relay := .suppressed })
      | .sending _ _ | .relayed | .suppressed | .noRelay =>
        (s.echo cfg i copy now).counters = s.counters.add .echoes 1 ∧
          x = some { e with echoes := min 15 (e.echoes + 1) } := by
  subst ht
  have hstays : ∀ r : RelayState, r.isPending = false → e.relay = r → r.hearCopy copy s.elapsed = r →
      s.echo cfg i copy s.elapsed =
        (s.count .echoes).writePlace i (some { e with echoes := min 15 (e.echoes + 1), relay := r }) :=
    fun r hpending hr hsame => by
    have hhear : e.hear copy s.elapsed = { e with echoes := min 15 (e.echoes + 1), relay := r } := by
      rw [HeardEntry.hear, hr, hsame]
    simp only [State.echo, he, hhear, hpending, Bool.false_and, Bool.false_eq_true, if_false]
  cases hr : e.relay with
  | pending stored received due =>
    have hhear : (e.hear copy s.elapsed).relay = if budgetOf stored < budgetOf copy then
        .pending (copy.take 30) s.elapsed due else .pending stored received due := by
      rw [HeardEntry.hear, hr]
      rfl
    have hpending : (e.hear copy s.elapsed).relay.isPending = true := by
      rw [hhear]
      split_ifs <;> rfl
    have hechoes : (e.hear copy s.elapsed).echoes = min 15 (e.echoes + 1) := rfl
    have hecho : s.echo cfg i copy s.elapsed = if cfg.suppression ≤ min 15 (e.echoes + 1) then
        ((s.count .echoes).count .suppressed).settlePlace cfg i { e.hear copy s.elapsed with relay := .suppressed }
        else (s.count .echoes).writePlace i (some (e.hear copy s.elapsed)) := by
      simp only [State.echo, he, hpending, Bool.true_and, decide_eq_true_eq, hechoes]
    dsimp only
    by_cases hn : min 15 (e.echoes + 1) < cfg.suppression
    · rw [hecho, if_neg (Nat.not_le.2 hn)]
      refine ⟨_, rfl, ?_⟩
      rw [if_pos hn, ← hhear]
      exact ⟨rfl, rfl⟩
    · rw [hecho, if_pos (Nat.not_lt.1 hn)]
      refine ⟨_, State.settlePlace_heard _ cfg i _, ?_⟩
      rw [if_neg hn]
      simp only [HeardEntry.forgotten_iff]
      exact ⟨rfl, rfl⟩
  | sending stored received => exact ⟨_, by rw [hstays _ rfl hr rfl]; rfl, by rw [hstays _ rfl hr rfl]; rfl, rfl⟩
  | relayed => exact ⟨_, by rw [hstays _ rfl hr rfl]; rfl, by rw [hstays _ rfl hr rfl]; rfl, rfl⟩
  | suppressed => exact ⟨_, by rw [hstays _ rfl hr rfl]; rfl, by rw [hstays _ rfl hr rfl]; rfl, rfl⟩
  | noRelay => exact ⟨_, by rw [hstays _ rfl hr rfl]; rfl, by rw [hstays _ rfl hr rfl]; rfl, rfl⟩

/-- Settles O21, by `State.echo_spec`. -/
theorem echoesCountAndSuppress : Obligations.EchoesCountAndSuppress := by
  intro s cfg bytes levels i e hrun hend hpass horigin hlookup he n
  obtain ⟨o, ho⟩ := Option.isSome_iff_exists.1 horigin
  have hafter : s.after (.receptionEnd bytes levels) = s.endReception.echo cfg i bytes s.elapsed := by
    have ho' : s.endReception.origins.find (originOf bytes) = some o := ho
    have hlookup' : lookup s.endReception.relay.heard (originOf bytes) (serialOf bytes) = some i := hlookup
    rw [State.after_receptionEnd_of_ends hrun hend]
    simp only [State.filter, State.filterSound, hpass, ho', hlookup', if_true]
    rfl
  have hf := State.echo_frame cfg i bytes s.elapsed s.endReception
  obtain ⟨x, hrelay, hx⟩ := State.echo_spec (cfg := cfg) (copy := bytes) (now := s.elapsed) (s := s.endReception) he rfl
  have hheard := congrArg Relay.heard hrelay
  have hplace : entryAt (s.endReception.echo cfg i bytes s.elapsed).relay.heard i = x := by
    rw [hheard]
    exact (entryAt_set _ _ _ _).trans (if_pos ⟨rfl, entryAt_lt he⟩)
  refine ⟨_, exec_eq_next _ s, ?_⟩
  rw [hafter]
  refine ⟨hf .line (by decide), ?_, ?_, fun j hj => ?_, (s.endReception_frame.mono (by decide)).trans (hf.mono (by decide)),
    ?_⟩
  · rw [hrelay]
    rfl
  · rw [hheard]
    exact List.length_set ..
  · rw [hheard]
    exact (entryAt_set _ _ _ _).trans (if_neg fun h => hj h.1)
  · rw [hplace]
    exact hx

end Sys2Proof.Machine
end

section
/-! PROOF. What an acceptance records (section 2.4). -/

namespace Sys2Proof.Machine

/-! ## A changed condition at a channel -/

section
variable (cfg : Configuration) (s : State)

theorem State.setCondition_get (k : Condition) (x : Bool) (c : Channel) :
    (s.setCondition cfg k x).channels.get c =
      if s.monitor.conditions.get k = x then s.channels.get c
      else ((Work.idle (s.channels.get c)).stationCondition (cfg.channel c) cfg.stagger
        (s.monitor.conditions.set k x) k).unit := by
  unfold State.setCondition
  split_ifs
  · rfl
  · rw [State.onEachChannel_get]
    rfl

/-! ## SILENCE and its countdown -/

/-- SILENCE and its countdown (R150). -/
def State.silences : Option Nat × Bool := (s.monitor.silence, s.monitor.conditions.silence)

variable {s}

theorem State.silences_of_monitor {t : State} (h : t.monitor = s.monitor) : t.silences = s.silences := by
  rw [State.silences, h]
  rfl

theorem State.silences_of_frame {ps : List Part} {t : State} (h : s.keepsAllBut ps t) (hm : Part.monitor ∉ ps) :
    t.silences = s.silences := State.silences_of_monitor (h .monitor hm)

variable (s)

theorem State.restartSilence_silences : (s.restartSilence cfg).silences = (cfg.silenceStart, false) := by
  rw [State.silences, State.restartSilence_monitor]

theorem State.reportTimeInvalid_silences : (s.reportTimeInvalid cfg).silences = s.silences := by
  rw [State.silences, State.reportTimeInvalid_monitor]
  rfl

theorem State.reportStep_silences : (s.reportStep cfg).silences = s.silences := by
  rw [State.silences, State.reportStep_monitor]
  rfl

theorem State.examineAwaiting_silences (awaited : List Moment) :
    (s.examineAwaiting cfg awaited).silences = s.silences := by
  obtain h | ⟨h, -⟩ := s.examineAwaiting_monitor cfg awaited
  · exact State.silences_of_monitor h
  · rw [State.silences, h]
    rfl

theorem State.complete_silences (image : List Byte) : (s.complete cfg image).silences = s.silences := by
  unfold State.complete
  dsimp only
  split_ifs
  · rfl
  · rfl
  · rfl
  · exact State.examineAwaiting_silences cfg _ []

theorem State.beacon_silences (b : Beacon) (age : Nat) : (s.beacon cfg b age).silences = s.silences := by
  cases hv : beaconValid cfg b age with
  | false =>
    rw [State.beacon_of_invalid hv]
    rfl
  | true =>
    rw [State.beacon_of_valid hv]
    have hdecided : ∀ d, (s.decided cfg (b.estimate age) d).silences = s.silences := fun d =>
      State.silences_of_frame (s.decided_frame cfg (b.estimate age) d) (by decide)
    refine (State.inSomeOrder_none State.silences _ fun act hact t => ?_).trans (hdecided _)
    rw [beaconReports_eq, List.mem_append, mem_earlierReports, List.mem_singleton] at hact
    obtain (⟨-, rfl | rfl⟩ | ⟨-, rfl⟩ | ⟨-, rfl | rfl | rfl⟩) | rfl := hact
    · exact State.silences_of_frame (t.expireAndResolve_frame cfg) (by decide)
    · exact t.examineAwaiting_silences cfg []
    · exact t.reportStep_silences cfg
    · exact State.silences_of_frame (t.resolverTimeState_frame cfg _) (by decide)
    · exact t.examineAwaiting_silences cfg []
    · exact t.reportTimeInvalid_silences cfg
    · exact State.silences_of_frame (t.takeClasses_frame cfg b) (by decide)

theorem State.route_silences (copy : List Byte) : (s.route cfg copy).silences = s.silences := by
  unfold State.route
  split_ifs
  · exact s.beacon_silences cfg _ _
  · exact State.silences_of_frame (s.routeOrder_frame cfg copy) (by decide)
  · rfl
  · unfold State.collect
    split_ifs
    · dsimp only
      split_ifs
      · exact s.complete_silences cfg _
      · rfl
    · rfl
  · rfl
  · rfl

/-! ## What every acceptance leaves -/

variable (copy : List Byte) (margin : Nat)

theorem State.accept_silences : (s.accept cfg copy margin).silences = (cfg.silenceStart, false) := by
  refine State.inSomeOrder_one State.silences (fun _ => (cfg.silenceStart, false)) [_, _] [_] _ ?_
    fun t => t.restartSilence_silences cfg
  simp only [List.cons_append, List.nil_append, List.forall_mem_cons, List.not_mem_nil, false_implies, implies_true,
    and_true]
  exact ⟨fun t => rfl, fun t => State.silences_of_frame (t.openEntry_frame cfg copy margin _) (by decide),
    fun t => t.route_silences cfg copy⟩

/-- Routing counts neither acceptances nor telegrams dropped from relaying (R30 to R35). -/
theorem State.route_reception_counters : (s.route cfg copy).counters.rxOk = s.counters.rxOk ∧
    (s.route cfg copy).counters.relayDropped = s.counters.relayDropped := by
  refine (s.route_countsUp cfg copy).keeps
    (P := fun c => c.rxOk = s.counters.rxOk ∧ c.relayDropped = s.counters.relayDropped) (fun c k hk n hc => ?_)
    ⟨rfl, rfl⟩
  simp only [routedKinds, List.mem_cons, List.not_mem_nil, or_false] at hk
  obtain rfl | rfl | rfl | rfl | rfl | rfl | rfl := hk <;> exact hc

theorem State.accept_rxOk : (s.accept cfg copy margin).counters.rxOk = saturate s.counters.rxOk 1 := by
  refine State.inSomeOrder_one (fun t => t.counters.rxOk) (saturate · 1) [] [_, _, _] _ ?_ fun t => rfl
  simp only [List.nil_append, List.forall_mem_cons, List.not_mem_nil, false_implies, implies_true, and_true]
  refine ⟨fun t => ?_, fun t => congrArg Counters.rxOk (t.restartSilence_frame cfg .counters (by decide)),
    fun t => (t.route_reception_counters cfg copy).1⟩
  rw [State.openEntry_counters]
  split <;> rfl

theorem State.accept_relayDropped : (s.accept cfg copy margin).counters.relayDropped =
    match placeFor s.relay.heard with
    | none => saturate s.counters.relayDropped 1
    | some _ => s.counters.relayDropped := by
  have h := State.inSomeOrder_one (s := s) (fun t => (t.relay, t.counters.relayDropped))
    (fun x => (x.1.opened cfg copy margin s.elapsed, match placeFor x.1.heard with
      | none => saturate x.2 1
      | some _ => x.2))
    [State.recordAcceptance copy] [State.restartSilence cfg, State.route cfg copy]
    (State.openEntry cfg copy margin s.elapsed) ?_ fun t => ?_
  · exact congrArg Prod.snd h
  · simp only [List.cons_append, List.nil_append, List.forall_mem_cons, List.not_mem_nil, false_implies, implies_true,
      and_true]
    exact ⟨fun t => rfl, fun t => Prod.ext (t.restartSilence_frame cfg .relay (by decide))
        (congrArg Counters.relayDropped (t.restartSilence_frame cfg .counters (by decide))),
      fun t => Prod.ext (t.route_frame cfg copy .relay (by decide)) (t.route_reception_counters cfg copy).2⟩
  · refine Prod.ext (t.openEntry_relay cfg copy margin s.elapsed) ?_
    dsimp only
    rw [State.openEntry_counters]
    cases placeFor t.relay.heard <;> rfl

/-! ## A telegram that is routed to no block -/

variable {cfg copy s margin}

theorem State.route_of_unrouted (h1 : kindOf copy ≠ 1)
    (h23 : kindOf copy = 2 ∨ kindOf copy = 3 → addresses cfg (targetOf copy) = false) : s.route cfg copy = s := by
  unfold State.route
  rw [if_neg h1]
  by_cases h2 : kindOf copy = 2
  · rw [if_pos h2, h23 (.inl h2)]
    rfl
  · rw [if_neg h2]
    by_cases h3 : kindOf copy = 3
    · rw [if_pos h3, h23 (.inr h3)]
      rfl
    · rw [if_neg h3]

theorem State.accept_of_unrouted (hroute : ∀ t : State, t.route cfg copy = t) :
    s.aside (s.accept cfg copy margin) := by
  obtain ⟨u, hu, ht⟩ := s.accept_routed cfg copy margin
  rw [hroute] at ht
  exact hu.trans ht

theorem State.accept_get_of_unrouted (hroute : ∀ t : State, t.route cfg copy = t)
    (hsilence : s.monitor.conditions.silence = true) (c : Channel) :
    (s.accept cfg copy margin).channels.get c = ((Work.idle (s.channels.get c)).stationCondition (cfg.channel c)
      cfg.stagger { s.monitor.conditions with silence := false } .silence).unit := by
  have h := State.inSomeOrder_one (s := s) (fun t => (t.channels.get c, t.monitor.conditions))
    (fun x => (if x.2.silence = false then x.1 else ((Work.idle x.1).stationCondition (cfg.channel c)
      cfg.stagger { x.2 with silence := false } .silence).unit, { x.2 with silence := false }))
    [State.recordAcceptance copy, State.openEntry cfg copy margin s.elapsed] [State.route cfg copy]
    (State.restartSilence cfg) ?_ fun t => ?_
  · refine (congrArg Prod.fst h).trans (if_neg ?_)
    change ¬ s.monitor.conditions.silence = false
    simp [hsilence]
  · simp only [List.cons_append, List.nil_append, List.forall_mem_cons, List.not_mem_nil, false_implies, implies_true,
      and_true]
    refine ⟨fun t => rfl, fun t => Prod.ext ?_ ?_, fun t => by rw [hroute]⟩
    · exact congrArg (·.get c) (t.openEntry_frame cfg copy margin s.elapsed .channels (by decide))
    · exact congrArg Monitor.conditions (t.openEntry_frame cfg copy margin s.elapsed .monitor (by decide))
  · exact Prod.ext (State.setCondition_get cfg _ .silence false c)
      (congrArg Monitor.conditions (t.restartSilence_monitor cfg))

end

theorem relayDraw_le (cfg : Configuration) (g : Generator) : relayDraw cfg g ≤ cfg.relaySpread :=
  Nat.lt_succ_iff.1 (Nat.mod_lt _ (Nat.succ_pos _))

theorem openedEntry_eq (cfg : Configuration) (g : Generator) (copy : List Byte) (margin now : Nat) :
    openedEntry cfg g copy margin now = ⟨originOf copy, serialOf copy,
      if cfg.relayEnable = true ∧ 1 ≤ budgetOf copy then
        .pending (copy.take 30) now (now + 4 * margin + relayDraw cfg g)
      else .noRelay, 0, now⟩ := by
  simp only [openedEntry, openedState, Bool.and_eq_true, decide_eq_true_eq]
  rfl

/-- The Heard Table and the count of the dropped telegrams after an acceptance (R42 to R44). -/
theorem State.accept_entry (cfg : Configuration) (copy : List Byte) (margin : Nat) (s : State) :
    match placeFor s.relay.heard with
    | none => (s.accept cfg copy margin).relay.heard = s.relay.heard ∧
        (s.accept cfg copy margin).counters.relayDropped = saturate s.counters.relayDropped 1
    | some i => (s.accept cfg copy margin).counters.relayDropped = s.counters.relayDropped ∧
        ∃ r ≤ cfg.relaySpread, (s.accept cfg copy margin).relay.heard = s.relay.heard.set i (some
          ⟨originOf copy, serialOf copy,
            if cfg.relayEnable = true ∧ 1 ≤ budgetOf copy then
              .pending (copy.take 30) s.elapsed (s.elapsed + 4 * margin + r)
            else .noRelay, 0, s.elapsed⟩) := by
  rw [State.accept_relay, State.accept_relayDropped, Relay.opened]
  cases placeFor s.relay.heard with
  | none => exact ⟨rfl, rfl⟩
  | some i =>
    refine ⟨rfl, relayDraw cfg s.relay.generator, relayDraw_le _ _, ?_⟩
    dsimp only
    rw [openedEntry_eq]

theorem Relay.opened_eq (cfg : Configuration) (copy : List Byte) (margin now : Nat) (r : Relay) :
    r.opened cfg copy margin now = { r with
      heard := (r.opened cfg copy margin now).heard
      generator := (r.opened cfg copy margin now).generator } := by
  unfold Relay.opened
  cases placeFor r.heard <;> rfl

/-- All that an unrouted telegram does beyond its acceptance's own counters and tables (R30, R35). -/
theorem State.accept_unrouted_spec {cfg : Configuration} {copy : List Byte} {margin : Nat} {s : State}
    (hroute : ∀ t : State, t.route cfg copy = t) :
    s.keepsAllBut [.meetings, .line, .origins, .relay, .channels, .monitor, .status, .counters]
        (s.accept cfg copy margin) ∧
      (s.accept cfg copy margin).counters = (match placeFor s.relay.heard with
        | none => (s.counters.add .rxOk 1).add .relayDropped 1
        | some _ => s.counters.add .rxOk 1) ∧
      (s.accept cfg copy margin).monitor = { s.monitor with
        silence := cfg.silenceStart, conditions := { s.monitor.conditions with silence := false } } ∧
      (s.monitor.conditions.silence = false →
        (s.accept cfg copy margin).channels = s.channels ∧ (s.accept cfg copy margin).status = s.status) ∧
      (s.monitor.conditions.silence = true →
        (s.accept cfg copy margin).status = { s.status with changePending := true } ∧
        ∀ c, (s.accept cfg copy margin).channels.get c =
          ((Work.idle (s.channels.get c)).stationCondition (cfg.channel c) cfg.stagger
            (s.accept cfg copy margin).monitor.conditions .silence).unit) := by
  have haside := State.accept_of_unrouted (s := s) (margin := margin) hroute
  obtain ⟨hsilence, hflag⟩ := Prod.mk.inj (s.accept_silences cfg copy margin)
  have hmonitor : (s.accept cfg copy margin).monitor = { s.monitor with
      silence := cfg.silenceStart, conditions := { s.monitor.conditions with silence := false } } := by
    rw [haside.monitor, hsilence, hflag]
  refine ⟨haside.frame.mono (by decide), ?_, hmonitor, fun hq => (haside.quiet hq).2, fun hq => ⟨?_, fun c => ?_⟩⟩
  · rw [haside.counters, State.accept_rxOk, State.accept_relayDropped]
    cases placeFor s.relay.heard <;> rfl
  · have hpending : (s.accept cfg copy margin).status.changePending = true := haside.changed fun heq => by
      have := congrArg Conditions.silence heq
      rw [hflag, hq] at this
      exact Bool.false_ne_true this
    obtain ⟨hperiodic, hemission, -⟩ := haside.noted
    generalize (s.accept cfg copy margin).status = x at *
    cases x
    simp_all
  · rw [State.accept_get_of_unrouted hroute hq c, hmonitor]

/-- Settles O22, from what an acceptance makes of each block, and `State.accept_unrouted_spec`. -/
theorem acceptanceRecordsTheTelegram : Obligations.AcceptanceRecordsTheTelegram := by
  intro s cfg bytes levels hrun hend haccepts start
  have hf := s.endReception.accept_frame cfg bytes (linkMargin s.line.noise (levels / 32))
  obtain ⟨hsilence, hflag⟩ := Prod.mk.inj
    (s.endReception.accept_silences cfg bytes (linkMargin s.line.noise (levels / 32)))
  refine ⟨_, exec_eq_next _ s, ?_⟩
  rw [State.after_receptionEnd_of_accepts hrun hend haccepts]
  refine ⟨hf .line (by decide), State.accept_origins cfg bytes _ s.endReception,
    s.endReception.accept_rxOk cfg bytes _, hsilence, hflag, ?_, s.endReception.accept_entry cfg bytes _,
    (s.endReception_frame.mono (by decide)).trans (hf.mono (by decide)), fun h1 h23 => ?_⟩
  · rw [State.accept_relay]
    exact Relay.opened_eq ..
  · obtain ⟨hframe, hcounters, hmonitor, hquiet, hcleared⟩ := State.accept_unrouted_spec (cfg := cfg) (copy := bytes)
      (margin := linkMargin s.line.noise (levels / 32)) (s := s.endReception) fun t => State.route_of_unrouted h1 h23
    exact ⟨(s.endReception_frame.mono (by decide)).trans hframe, hcounters, hmonitor, hquiet, hcleared⟩

end Sys2Proof.Machine
end

section
/-! PROOF. The supply, the restarts and the loading (chapter 10), and the tick on an empty queue. -/

namespace Sys2Proof.Machine

/-! ## An empty queue -/

theorem step_of_empty {s : State} (h : s.pending = []) : step s = .next s.tick := by
  unfold step
  rw [h]

/-- Settles O2, by the cases of `State.tick`. -/
theorem emptyQueuePassesATick : Obligations.EmptyQueuePassesATick := by
  intro s hempty reading
  rw [step_of_empty hempty]
  have hreading : s.loader.reading = true ↔ reading := Loader.reading_iff _
  refine ⟨fun hrun hr => ?_, fun hrun hr => ?_, fun hrun hbridged => ?_, fun hrun hbridged => ?_⟩
  · refine ⟨s.meeting % 2 = 1, decide_eq_true_iff, ?_⟩
    rw [State.tick, if_pos hrun, if_pos (hreading.2 hr)]
    rfl
  · refine ⟨s.elapse.met.setPending (arrange s.elapse.meeting s.elapse.tickEvents), ?_, rfl, fun c => ?_, rfl,
      arrange_perm _ _, ?_⟩
    · rw [State.tick, if_pos hrun, if_neg fun h => hr (hreading.1 h)]
    · exact Six.get_of _ _
    · exact (s.elapse_frame.mono (by decide)).trans ((s.elapse.met_frame.mono (by decide)).trans
        ((State.setPending_frame _ _).mono (by decide)))
  · rw [State.tick, if_neg (by simp [hrun]), if_pos hbridged]
  · rw [State.tick, if_neg (by simp [hrun]), if_neg (by simp [hbridged])]

/-! ## The restarts -/

/-- Settles O6: a cold restart leaves `State.reset`, but for the queue and the order of meetings. -/
theorem coldRestartClearsEveryBlock : Obligations.ColdRestartClearsEveryBlock := by
  intro s
  refine ⟨fun h => ?_, fun hlow hup => ?_, rfl, rfl, rfl, rfl, rfl, rfl, rfl, rfl, rfl, rfl, rfl, rfl, rfl, rfl, rfl,
    rfl, rfl, rfl, rfl, rfl, fun c => ?_, rfl, rfl, rfl, rfl, rfl, rfl, rfl, rfl, rfl, rfl, rfl,
    (by decide : ∀ n ∈ Counters.restart.list, n = 0), rfl⟩
  · rw [exec_eq_next, State.after_coldRestart, if_pos (s.power.restartsCold_iff.2 h)]
  · rw [exec_eq_next, State.after_coldRestart, if_neg]
    rw [Power.restartsCold_iff, hlow]
    rintro (h | ⟨hdown, hmark⟩)
    · exact Bool.false_ne_true h
    · simp [hdown, hmark] at hup
  · have hc : s.coldRestarted.channels.get c = .restart := Six.get_all _ _
    rw [State.relaySinks, hc]
    exact ⟨rfl, rfl, rfl, rfl, rfl, rfl, rfl, rfl, rfl, rfl, rfl, rfl⟩

theorem State.warmRestarted_coldRestarted_frame (s : State) :
    s.coldRestarted.keepsAllBut [.power, .time, .origins, .programs, .resolver] s.warmRestarted := by
  intro p hp
  simp only [List.mem_cons, List.not_mem_nil, or_false, not_or] at hp
  cases p <;> simp_all [State.same, State.warmRestarted, State.coldRestarted]

/-- Settles O7. -/
theorem warmRestartKeepsWhatIsRetained : Obligations.WarmRestartKeepsWhatIsRetained := by
  intro s
  refine ⟨fun hdown hmark hhigh => ?_, fun h => ?_⟩
  · rw [exec_eq_next, State.after_warmRestart, if_pos (s.power.restartsWarm_iff.2 ⟨hdown, hmark, hhigh⟩)]
    exact ⟨_, rfl, rfl, rfl, rfl, rfl, rfl, rfl, rfl, rfl, rfl, rfl, rfl, rfl, rfl, rfl, rfl, rfl, rfl,
      s.warmRestarted_coldRestarted_frame⟩
  · rw [exec_eq_next, State.after_warmRestart, if_neg]
    rw [Power.restartsWarm_iff]
    rintro ⟨hdown, hmark, hhigh⟩
    simp [hdown, hmark, hhigh] at h

/-! ## The supply's events -/

theorem State.relaySinks_of_stopped {s : State} (h : s.running = false) (c : Channel) : s.relaySinks c = false := by
  rw [State.relaySinks, h]
  rfl

/-- Settles O8. -/
theorem supplyEventsStopThePart : Obligations.SupplyEventsStopThePart := by
  refine ⟨fun s hup hhigh => ?_, fun s hup hlow => ?_, fun s hdown => ?_, fun s => ?_, fun s hup => ?_, fun s hdown => ?_⟩
  · rw [exec_eq_next, State.after_supplyFailure, if_pos hup, if_neg (by simp [hhigh])]
    exact ⟨_, rfl, rfl, rfl, rfl, rfl, rfl, fun c => State.relaySinks_of_stopped rfl c,
      ((s.setPower_frame _).mono (by decide)).trans ((State.cutOff_frame _).mono (by decide))⟩
  · rw [exec_eq_next, State.after_supplyFailure, if_pos hup, if_pos hlow]
    exact ⟨_, rfl, rfl, s.setPower_frame _⟩
  · rw [exec_eq_next, State.after_supplyFailure, if_neg (by simp [hdown])]
  · have hstopped : (s.after .nresetAsserted).running = false := Bool.and_false _
    exact ⟨_, exec_eq_next _ s, hstopped, rfl, rfl, rfl, rfl, rfl, rfl, rfl, rfl, rfl, rfl,
      fun c => State.relaySinks_of_stopped hstopped c, s.after_frame .nresetAsserted⟩
  · rw [exec_eq_next, State.after_vholdLoss, if_pos hup]
  · have hframe := s.after_frame .vholdLoss
    rw [exec_eq_next, State.after_vholdLoss, if_neg (by simp [hdown])]
    rw [State.after_vholdLoss, if_neg (by simp [hdown])] at hframe
    exact ⟨_, rfl, rfl, rfl, rfl, rfl, rfl, rfl, hframe⟩

/-! ## The restart state -/

/-- Settles O59. -/
theorem resetIsSound : Obligations.ResetIsSound := by
  refine ⟨⟨by decide, by decide⟩, by decide, ?_, ?_, ?_, State.heardSound_of_restart rfl rfl,
    State.lineSound_of_restart rfl rfl rfl, State.countdownsSound_of_restart rfl rfl,
    State.conditionsSound_of_restart rfl rfl, trivial, fun _ _ => ⟨by decide, by decide, Nat.zero_le _⟩⟩
  · exact ⟨trivial, by simp [State.reset, Collector.cold], by decide, by decide, rfl⟩
  · exact ⟨by decide, fun slot hslot w hw => by rw [List.eq_of_mem_replicate hslot] at hw; cases hw⟩
  · exact ⟨by decide, by decide, by simp [State.reset, OriginTable.cold], by simp [State.reset, OriginTable.cold]⟩

/-! ## A read attempt judged (R186) -/

section
variable {s : State} {a : StoreAnswer} {noise : Rat} {v : Bool}

/-- The bytes of an attempt that read them, or what the image buffer held. -/
def imageBuffer (a : StoreAnswer) (held : Option (List Byte)) : Option (List Byte) :=
  match attemptEnd a with
  | .data image => some image
  | .noAnswer | .busFault => held

/-- The state at which an ended attempt is judged: its bus actions and the image buffer noted. -/
def State.attempted (a : StoreAnswer) (s : State) : State :=
  s.setLoader { s.loader with bus := attemptActions a, image := imageBuffer a s.loader.image }

/-- An attempt fails without bytes, and with bytes that do not pass their check (R185, R186). -/
def attemptFails (a : StoreAnswer) : Prop :=
  attemptEnd a = .noAnswer ∨ attemptEnd a = .busFault ∨
    ∃ image, attemptEnd a = .data image ∧ image.length = 66 ∧ imagePasses image = false

/-- An attempt reads a good image of another version (R186). -/
def attemptOtherVersion (a : StoreAnswer) : Prop :=
  ∃ image, attemptEnd a = .data image ∧ image.length = 66 ∧ imagePasses image = true ∧ versionOf image ≠ 1

theorem State.judgeAttempt_of_fails (h : attemptFails a) : s.judgeAttempt a noise v = (s.attempted a).failAttempt v := by
  unfold State.judgeAttempt State.attempted imageBuffer
  obtain h | h | ⟨image, h, -, hcheck⟩ := h
  · rw [h]
  · rw [h]
  · rw [h]
    dsimp only
    rw [State.judgeImage, if_neg (by simp [hcheck])]
    rfl

theorem State.judgeAttempt_of_otherVersion (h : attemptOtherVersion a) :
    s.judgeAttempt a noise v = (s.attempted a).foundUnconfigured v := by
  obtain ⟨image, h, -, hcheck, hversion⟩ := h
  unfold State.judgeAttempt State.attempted imageBuffer
  rw [h]
  dsimp only
  rw [State.judgeImage, if_pos hcheck, if_neg hversion]
  rfl

theorem attemptComplete_of_ended (h : attemptFails a ∨ attemptOtherVersion a) : attemptComplete a = true := by
  obtain (h | h | ⟨image, h, hlen, -⟩) | ⟨image, h, hlen, -⟩ := h <;> simp_all [attemptComplete]

theorem State.after_readAttemptEnd_of_complete (hrun : s.running = true) (hload : s.loader.load = .loading)
    (hretry : s.loader.retryAt = none) (hc : attemptComplete a = true) :
    s.after (.readAttemptEnd a noise v) = s.judgeAttempt a noise v := by
  rw [State.after_readAttemptEnd, State.whenRunning_eq hrun, if_pos]
  rw [Bool.and_eq_true, Loader.reading_iff]
  exact ⟨⟨hload, hretry⟩, hc⟩

theorem State.failAttempt_of_lt (h : s.loader.attempts < 3) :
    s.failAttempt v = s.setLoader { s.loader with retryAt := some (s.elapsed + 2) } := if_pos h

theorem State.failAttempt_of_ge (h : 3 ≤ s.loader.attempts) : s.failAttempt v = s.foundUnconfigured v :=
  if_neg (Nat.not_lt.2 h)

/-- A complete attempt has failed, or has read a good image, of this version or of another (R186). -/
theorem attemptComplete_cases (hc : attemptComplete a = true) : attemptFails a ∨ attemptOtherVersion a ∨
    ∃ image, attemptEnd a = .data image ∧ imagePasses image = true ∧ versionOf image = 1 := by
  cases h : attemptEnd a with
  | noAnswer => exact .inl (.inl h)
  | busFault => exact .inl (.inr (.inl h))
  | data image =>
    have hlen := attemptComplete_data hc h
    cases hcheck : imagePasses image with
    | false => exact .inl (.inr (.inr ⟨image, h, hlen, hcheck⟩))
    | true =>
      by_cases hversion : versionOf image = 1
      · exact .inr (.inr ⟨image, rfl, hcheck, hversion⟩)
      · exact .inr (.inl ⟨image, h, hlen, hcheck, hversion⟩)

theorem State.judgeAttempt_of_good {image : List Byte} (h : attemptEnd a = .data image)
    (hcheck : imagePasses image = true) (hversion : versionOf image = 1) :
    s.judgeAttempt a noise v = (s.attempted a).foundConfigured (configurationOf image) noise v := by
  unfold State.judgeAttempt State.attempted imageBuffer
  rw [h]
  dsimp only
  rw [State.judgeImage, if_pos hcheck, if_pos hversion]
  rfl

/-- A part is still loading after an attempt only where another attempt is to follow. -/
theorem State.judgeAttempt_loading (hc : attemptComplete a = true)
    (h : (s.judgeAttempt a noise v).loader.load = .loading) : s.loader.attempts < 3 ∧
      s.judgeAttempt a noise v = (s.attempted a).setLoader
        { (s.attempted a).loader with retryAt := some (s.elapsed + 2) } := by
  obtain hfail | hother | ⟨image, hend, hcheck, hversion⟩ := attemptComplete_cases hc
  · rw [State.judgeAttempt_of_fails hfail] at h ⊢
    by_cases hlt : s.loader.attempts < 3
    · exact ⟨hlt, State.failAttempt_of_lt (s := s.attempted a) hlt⟩
    · rw [State.failAttempt_of_ge (s := s.attempted a) (Nat.not_lt.1 hlt), State.foundUnconfigured_loader] at h
      cases h
  · rw [State.judgeAttempt_of_otherVersion hother, State.foundUnconfigured_loader] at h
    cases h
  · rw [State.judgeAttempt_of_good hend hcheck hversion, State.foundConfigured_loader] at h
    cases h

theorem State.foundUnconfigured_power (v : Bool) (s : State) :
    (s.foundUnconfigured v).power = { s.power with mark := v } := by
  unfold State.foundUnconfigured
  rw [State.onEachChannel_power]
  rfl

theorem State.foundUnconfigured_status (v : Bool) (s : State) :
    (s.foundUnconfigured v).status = { s.status with changePending := true } := by
  unfold State.foundUnconfigured
  rw [State.onEachChannel_status]
  simp [State.endLoading, State.noteChange]

/-- What a part is left with that is found UNCONFIGURED after an attempt (R165, R186, R192). -/
theorem State.attempted_foundUnconfigured_spec (a : StoreAnswer) (v : Bool) :
    ((s.attempted a).foundUnconfigured v).loader =
        ⟨.unconfigured, s.loader.attempts, imageBuffer a s.loader.image, none, attemptActions a⟩ ∧
      ((s.attempted a).foundUnconfigured v).power = { s.power with mark := v } ∧
      ((s.attempted a).foundUnconfigured v).status = { s.status with changePending := true } ∧
      (∀ c, ((s.attempted a).foundUnconfigured v).channels.get c =
        { s.channels.get c with state := .fallbackHold, handed := some .off }) ∧
      s.keepsAllBut [.power, .channels, .loader, .status] ((s.attempted a).foundUnconfigured v) :=
  ⟨State.foundUnconfigured_loader v _, State.foundUnconfigured_power v _, State.foundUnconfigured_status v _,
    State.foundUnconfigured_get v _,
    ((s.setLoader_frame _).mono (by decide)).trans (State.foundUnconfigured_frame v _)⟩

end

/-! ## How far loading has come (R184) -/

theorem State.loadingSound_of_loader {s t : State} (hrun : t.running = true → s.running = true)
    (hl : t.loader = s.loader) (he : t.elapsed = s.elapsed)
    (hp : Instr.readRetry ∈ s.pending → Instr.readRetry ∈ t.pending) (h : s.loadingSound) : t.loadingSound := by
  intro hr hload
  rw [hl] at hload
  obtain ⟨hlow, hhigh, hretry⟩ := h (hrun hr) hload
  refine ⟨hl ▸ hlow, hl ▸ hhigh, ?_⟩
  rw [hl, he]
  cases hat : s.loader.retryAt with
  | none => simpa only [hat] using hretry
  | some at_ =>
    simp only [hat] at hretry ⊢
    obtain ⟨hattempts, hbound, hlate⟩ := hretry
    exact ⟨hattempts, hbound, hlate.imp_right fun ⟨heq, hmem⟩ => ⟨heq, hp hmem⟩⟩

theorem State.loadingSound_of_restart {s : State} (he : s.elapsed = 0) (hl : s.loader = .restart) :
    s.loadingSound := by
  intro _ _
  rw [hl, he]
  exact ⟨le_rfl, by decide, Nat.zero_le _⟩

theorem State.tick_loadingSound {s : State} (hempty : s.pending = []) (h : s.loadingSound) : s.tick.loadingSound := by
  refine State.tick_cases (P := State.loadingSound) (fun _ _ => ?_) (fun hrun hreading => ?_) (fun _ _ => ?_)
    fun _ _ => h
  · exact State.loadingSound_of_loader (s := s) id rfl rfl (by simp [hempty]) h
  · intro _ hl
    have hload : s.loader.load = .loading := hl
    obtain ⟨hlow, hhigh, hretry⟩ := h hrun hload
    refine ⟨hlow, hhigh, ?_⟩
    change match s.loader.retryAt with
      | none => s.elapsed + 1 ≤ 2 * (s.loader.attempts - 1)
      | some at_ => s.loader.attempts ≤ 2 ∧ at_ ≤ 2 * s.loader.attempts ∧
          (s.elapsed + 1 < at_ ∨ s.elapsed + 1 = at_ ∧
            Instr.readRetry ∈ arrange s.elapse.meeting s.elapse.tickEvents)
    cases hat : s.loader.retryAt with
    | none => exact absurd ((Loader.reading_iff s.loader).2 ⟨hload, hat⟩) (by simp [hreading])
    | some at_ =>
      simp only [hat, hempty, List.not_mem_nil, and_false, or_false] at hretry ⊢
      obtain ⟨hattempts, hbound, hlt⟩ := hretry
      refine ⟨hattempts, hbound, (Nat.lt_or_eq_of_le hlt).imp_right fun heq => ⟨heq, (arrange_perm _ _).mem_iff.2 ?_⟩⟩
      have hdue : Instr.readRetry ∈ s.elapse.loaderEvents := by
        have hl : s.elapse.loader.load = .loading := hload
        have ht : s.elapse.loader.retryAt = some at_ := hat
        have he : s.elapse.elapsed = at_ := heq
        simp [State.loaderEvents, hl, ht, he, whenever]
      simp only [State.tickEvents, List.mem_append]
      exact .inl (.inl (.inr hdue))
  · exact State.loadingSound_of_loader (s := s) id rfl rfl (by simp [hempty]) h

theorem State.retry_loadingSound {s : State} (rest : List Instr) (h : s.loadingSound) (hrun : s.running = true) :
    (s.setPending rest).retry.loadingSound := by
  intro hr hl
  unfold State.retry at hl ⊢
  cases hload : s.loader.load with
  | configured cfg => simp [hload] at hl
  | unconfigured => simp [hload] at hl
  | loading =>
    obtain ⟨hlow, hhigh, hretry⟩ := h hrun hload
    cases hat : s.loader.retryAt with
    | none =>
      simp only [State.setPending, hload, hat] at hretry ⊢
      exact ⟨hlow, hhigh, hretry⟩
    | some at_ =>
      simp only [State.setPending, hload, hat] at hretry ⊢
      obtain ⟨hattempts, hbound, hlate⟩ := hretry
      by_cases hle : at_ ≤ s.elapsed
      · rw [if_pos hle]
        refine ⟨Nat.le_add_left .., Nat.succ_le_succ hattempts, ?_⟩
        change s.elapsed ≤ 2 * (s.loader.attempts + 1 - 1)
        omega
      · rw [if_neg hle]
        refine ⟨hlow, hhigh, ?_⟩
        simp only [hat]
        exact ⟨hattempts, hbound, .inl (Nat.not_le.1 hle)⟩

theorem State.after_loadingSound {s : State} {i : Instr} {rest : List Instr} (hp : s.pending = i :: rest)
    (h : s.loadingSound) : ((s.setPending rest).after i).loadingSound := by
  have hframe := (s.setPending rest).after_frame i
  have hpending : ((s.setPending rest).after i).pending = rest := hframe .pending i.pending_not_mem_touches
  have hkept : i ≠ .readRetry → ∀ t : State, (t.running = true → s.running = true) → t.loader = s.loader →
      t.elapsed = s.elapsed → t.pending = rest → t.loadingSound := fun hi t hrun hl he ht =>
    State.loadingSound_of_loader hrun hl he (fun hmem => by
      rw [hp, List.mem_cons] at hmem
      exact ht ▸ hmem.resolve_left (Ne.symm hi)) h
  by_cases hother : ∃ p ∈ [Part.power, .loader, .elapsed], p ∈ i.touches
  case neg =>
    push Not at hother
    have hpower : ((s.setPending rest).after i).power = s.power := hframe .power (hother .power (by decide))
    have hi : i ≠ .readRetry := by
      rintro rfl
      exact hother .loader (by decide) (by decide)
    exact hkept hi _ (fun hr => by rwa [State.running, hpower] at hr) (hframe .loader (hother .loader (by decide)))
      (hframe .elapsed (hother .elapsed (by decide))) hpending
  cases i <;> simp [Instr.touches] at hother
  case coldRestart =>
    rw [State.after_coldRestart]
    split_ifs
    exacts [State.loadingSound_of_restart rfl rfl, hkept (by simp) _ id rfl rfl rfl]
  case warmRestart =>
    rw [State.after_warmRestart]
    split_ifs
    exacts [State.loadingSound_of_restart rfl rfl, hkept (by simp) _ id rfl rfl rfl]
  case supplyFailure =>
    rw [State.after_supplyFailure]
    split_ifs
    · exact hkept (by simp) _ (fun hr => by cases hr) rfl rfl rfl
    · exact hkept (by simp) _ (fun hr => by cases hr) rfl rfl rfl
    · exact hkept (by simp) _ id rfl rfl rfl
  case nresetAsserted =>
    have hstopped : ((s.setPending rest).after .nresetAsserted).running = false := Bool.and_false _
    exact hkept (by simp) _ (fun hr => absurd (hstopped.symm.trans hr) Bool.false_ne_true) rfl rfl rfl
  case vholdLoss =>
    rw [State.after_vholdLoss]
    split_ifs
    exacts [hkept (by simp) _ id rfl rfl rfl, hkept (by simp) _ id rfl rfl rfl]
  case retainedClockTick =>
    rw [State.after_retainedClockTick]
    split_ifs
    exacts [hkept (by simp) _ id rfl rfl rfl, hkept (by simp) _ id rfl rfl rfl]
  case readAttemptEnd a noise v =>
    have hsame : (s.setPending rest).loadingSound := hkept (by simp) _ id rfl rfl rfl
    rw [State.after_readAttemptEnd]
    refine State.whenRunning_cases hsame fun hrun => ?_
    split_ifs with hread
    · rw [Bool.and_eq_true, Loader.reading_iff] at hread
      obtain ⟨⟨hload, hat⟩, hcomplete⟩ := hread
      intro hr hl
      obtain ⟨hlt, heq⟩ := State.judgeAttempt_loading hcomplete hl
      obtain ⟨hlow, hhigh, hretry⟩ := hsame hrun hload
      rw [hat] at hretry
      rw [heq]
      have hbegun : s.elapsed ≤ 2 * (s.loader.attempts - 1) := hretry
      have hlow' : 1 ≤ s.loader.attempts := hlow
      have hat' : s.elapsed + 2 ≤ 2 * s.loader.attempts := by omega
      exact ⟨hlow, hhigh, Nat.lt_succ_iff.1 hlt, hat', .inl (Nat.lt_add_of_pos_right Nat.two_pos)⟩
    · exact hsame
  case readRetry =>
    rw [State.after_readRetry]
    unfold State.whenRunning
    split_ifs with hrun
    · exact State.retry_loadingSound rest h hrun
    · exact fun hr => absurd hr hrun

/-- Settles O10: each attempt's end by `State.judgeAttempt_of_fails` and `State.judgeAttempt_of_otherVersion`, and
`State.loadingSound` at every step. -/
theorem failedLoadingEndsUnconfigured : Obligations.FailedLoadingEndsUnconfigured := by
  refine ⟨fun s a noise v hrun hload hretry => ⟨fun hfail hlt => ?_, fun hends => ?_⟩, fun s at_ hrun hload hretry =>
    ⟨fun hle => ?_, fun hlt => ?_⟩, fun s t h hstep => ?_, fun s h hrun hload => ?_⟩
  · refine ⟨_, exec_eq_next _ s, ?_⟩
    rw [State.after_readAttemptEnd_of_complete hrun hload hretry (attemptComplete_of_ended (.inl hfail)),
      State.judgeAttempt_of_fails hfail, State.failAttempt_of_lt (s := s.attempted a) hlt]
    exact ⟨by rw [← hload]; rfl, ((s.setLoader_frame _).trans (State.setLoader_frame _ _))⟩
  · have hcomplete := attemptComplete_of_ended (hends.imp_left And.left)
    refine ⟨_, exec_eq_next _ s, ?_⟩
    rw [State.after_readAttemptEnd_of_complete hrun hload hretry hcomplete]
    obtain ⟨hfail, hge⟩ | hother := hends
    · rw [State.judgeAttempt_of_fails hfail, State.failAttempt_of_ge (s := s.attempted a) hge]
      exact State.attempted_foundUnconfigured_spec a v
    · rw [State.judgeAttempt_of_otherVersion hother]
      exact State.attempted_foundUnconfigured_spec a v
  · rw [exec_eq_next, State.after_readRetry, State.whenRunning_eq hrun, State.retry, hload, hretry]
    dsimp only
    rw [if_pos hle]
    exact ⟨_, rfl, rfl, s.setLoader_frame _⟩
  · rw [exec_eq_next, State.after_readRetry, State.whenRunning_eq hrun, State.retry, hload, hretry]
    dsimp only
    rw [if_neg (Nat.not_le.2 hlt)]
  · unfold step at hstep
    split at hstep
    next hempty =>
      obtain rfl := Host.Outcome.next.inj hstep
      exact State.tick_loadingSound hempty h
    next i rest hp =>
      obtain rfl := exec_eq_next_iff.1 hstep
      exact State.after_loadingSound hp h
  · obtain ⟨hlow, hhigh, hretry⟩ := h hrun hload
    cases hat : s.loader.retryAt with
    | none =>
      simp only [hat] at hretry
      omega
    | some at_ =>
      simp only [hat] at hretry
      omega

end Sys2Proof.Machine
end

section
/-! PROOF. The events that a tick of the crystal queues. -/

namespace Sys2Proof.Machine

/-! ## Each block's events -/

theorem Mains.nextSpan_le_iff (m : Mains) (now : Nat) :
    m.nextSpan ≤ now ↔ m.lastCrossing / 81920 + 10 * (m.spans + 1) ≤ now := Iff.rfl

theorem Mains.raises_iff (m : Mains) (now : Nat) :
    m.raises now = true ↔ m.cls = .outside ∧ m.changedAt + 500 ≤ now := by
  simp [Mains.raises]

theorem Mains.clears_iff (m : Mains) (now : Nat) :
    m.clears now = true ↔ m.cls = .inside ∧ m.changedAt + 3000 ≤ now := by
  simp [Mains.clears]

theorem mem_whenever {b : Bool} {i j : Instr} : j ∈ whenever b i ↔ j = i ∧ b = true := by
  cases b <;> simp [whenever]

theorem whenever_sublist (b : Bool) (i : Instr) : (whenever b i).Sublist [i] := by
  cases b <;> simp [whenever]

theorem mem_recordEvents {c : Channel} {x : Imposed} {j : Instr} : j ∈ recordEvents c x ↔
    j = .delayEnd c ∧ (∃ l n r, x = .force l (.delay n r)) ∨ j = .runEnd c ∧ (∃ l r, x = .force l (.run r)) ∨
      j = .portionEnd c ∧ ∃ f, x = .cycle f := by
  cases x with
  | none => simp [recordEvents]
  | force l p => cases p <;> simp [recordEvents]
  | cycle f => simp [recordEvents]

theorem recordEvents_sublist (c : Channel) (x : Imposed) :
    (recordEvents c x).Sublist [.delayEnd c, .runEnd c, .portionEnd c] := by
  cases x with
  | none => simp [recordEvents]
  | force l p => cases p <;> simp [recordEvents]
  | cycle f => simp [recordEvents]

section
variable {cfg : Configuration} {s : State} {j : Instr}

theorem State.mem_timeEvents : j ∈ s.timeEvents ↔ j = .clockAdvance ∨
    j = .holdCountdownExpiry ∧ (0 < s.elapsed ∧ s.elapsed % 100 = 0) ∧ s.loader.load ≠ .unconfigured ∧ 0 < s.time.hold ∨
    j = .lostCountdownExpiry ∧ (0 < s.elapsed ∧ s.elapsed % 100 = 0) ∧ s.loader.load ≠ .unconfigured ∧
      0 < s.time.lost := by
  simp [State.timeEvents, mem_whenever, endsSecond, and_assoc]

theorem State.mem_statusEvents : j ∈ s.statusEvents ↔
    j = .emissionEnd ∧ (∃ e, s.status.emission = some e ∧ e.startedAt + 6 ≤ s.elapsed) ∨
    j = .statusSecondEnd ∧ (0 < s.elapsed ∧ s.elapsed % 100 = 0) ∧ s.loader.load ≠ .loading := by
  simp [State.statusEvents, mem_whenever, endsSecond, Emission.over_iff, Option.any_eq_true]

theorem State.mem_monitorEvents : j ∈ s.monitorEvents ↔
    j = .mainsNoCrossing ∧ s.monitor.mains.lastCrossing / 81920 + 10 * (s.monitor.mains.spans + 1) ≤ s.elapsed ∨
    j = .mainsFreqRaise ∧ s.monitor.mains.cls = .outside ∧ s.monitor.mains.changedAt + 500 ≤ s.elapsed ∧
      s.monitor.conditions.mainsFreq = false ∨
    j = .mainsFreqClear ∧ s.monitor.mains.cls = .inside ∧ s.monitor.mains.changedAt + 3000 ≤ s.elapsed ∧
      s.monitor.conditions.mainsFreq = true ∨
    j = .silenceExpiry ∧ (0 < s.elapsed ∧ s.elapsed % 100 = 0) ∧ (∃ n, 0 < n ∧ s.monitor.silence = some n) ∨
    j = .stepHoldExpiry ∧ (0 < s.elapsed ∧ s.elapsed % 100 = 0) ∧ 0 < s.monitor.stepHold := by
  simp only [State.monitorEvents, List.mem_append, mem_whenever, endsSecond, Bool.and_eq_true, Mains.raises_iff,
    Mains.clears_iff, decide_eq_true_eq, Mains.nextSpan_le_iff, Option.any_eq_true, Bool.not_eq_true', or_assoc,
    and_assoc, and_comm (b := s.monitor.silence = _)]

theorem mem_channelEvents {second : Bool} {u : ChannelUnit} {c : Channel} : j ∈ channelEvents second u c ↔
    j = .dwellEnd c ∧ 0 < u.dwell ∨ second = true ∧ j ∈ recordEvents c u.override.imposed ∨
    j = .returnCountdownExpiry c ∧ second = true ∧ ∃ n, u.state = .returnWait n := by
  cases second <;> cases h : u.state <;> simp [channelEvents, mem_whenever, h]

theorem mem_placeEvents {now place : Nat} {slot : Option HeardEntry} : j ∈ placeEvents cfg now slot place ↔
    j = .entryFallsDue place ∧ (∃ e copy received, slot = some e ∧ e.relay = .pending copy received now) ∨
    j = .entryExpiry place ∧ ∃ e, slot = some e ∧ e.relay.settled = true ∧ e.firstHeard + 100 * cfg.heardMemory ≤ now := by
  rw [placeEvents, List.mem_append, mem_whenever, mem_whenever, expired_iff, Option.any_eq_true]
  refine or_congr (and_congr_right' (exists_congr fun e => ?_)) Iff.rfl
  cases h : e.relay <;> simp

theorem State.mem_relayEvents : j ∈ s.relayEvents cfg ↔
    j = .transmissionCompletion ∧ (∃ copy start, s.line.slot = .sending copy start ∧ start + 20 ≤ s.elapsed) ∨
    j = .backoffEnd ∧ (∃ ends, s.relay.access = .backoff ends ∧ ends ≤ s.elapsed) ∨
    ∃ place, j ∈ placeEvents cfg s.elapsed (entryAt s.relay.heard place) place := by
  have hplaces : j ∈ (s.relay.heard.zipIdx.flatMap fun p => placeEvents cfg s.elapsed p.1 p.2) ↔
      ∃ place, j ∈ placeEvents cfg s.elapsed (entryAt s.relay.heard place) place := by
    simp only [List.mem_flatMap, Prod.exists, List.mem_zipIdx_iff_getElem?]
    constructor
    · rintro ⟨slot, place, hslot, hj⟩
      refine ⟨place, ?_⟩
      rwa [entryAt, List.getD_eq_getElem?_getD, hslot]
    · rintro ⟨place, hj⟩
      cases hslot : s.relay.heard[place]? with
      | none =>
        rw [entryAt, List.getD_eq_getElem?_getD, hslot, mem_placeEvents] at hj
        simp at hj
      | some slot =>
        rw [entryAt, List.getD_eq_getElem?_getD, hslot] at hj
        exact ⟨slot, place, hslot, hj⟩
  rw [State.relayEvents, List.mem_append, List.mem_append, mem_whenever, mem_whenever, hplaces, or_assoc]
  refine or_congr (and_congr_right' ?_) (or_congr (and_congr_right' ?_) Iff.rfl)
  · cases s.line.slot with
    | idle => simp
    | sending copy start =>
      change decide (start + 20 ≤ s.elapsed) = true ↔ _
      simp
  · cases s.relay.access <;> simp

end

/-! ## No event is queued twice -/

/-- Every command of a CONFIGURED part's blocks, with those of these places of the Heard Table. -/
def configuredCommands (places : List Nat) : List Instr :=
  ([.transmissionCompletion, .backoffEnd] ++ places.flatMap fun i => [.entryFallsDue i, .entryExpiry i]) ++
  [.assemblyTimeout] ++
  (channelList.flatMap fun c => [.dwellEnd c, .delayEnd c, .runEnd c, .portionEnd c, .returnCountdownExpiry c]) ++
  [.mainsNoCrossing, .mainsFreqRaise, .mainsFreqClear, .silenceExpiry, .stepHoldExpiry]

/-- Every command a tick may queue, in the order in which a tick lists them. -/
def tickCommands (places : List Nat) : List Instr :=
  ([.clockAdvance, .holdCountdownExpiry, .lostCountdownExpiry] ++ [.readRetry]) ++ configuredCommands places ++
  [.emissionEnd, .statusSecondEnd]

theorem tickCommands_perm (places : List Nat) : (tickCommands places).Perm
    ((places.flatMap fun i => [Instr.entryFallsDue i, .entryExpiry i]) ++ tickCommands []) := by
  have hsplit : tickCommands places = [.clockAdvance, .holdCountdownExpiry, .lostCountdownExpiry, .readRetry,
      .transmissionCompletion, .backoffEnd] ++ ((places.flatMap fun i => [Instr.entryFallsDue i, .entryExpiry i]) ++
        (tickCommands []).drop 6) := by
    simp only [tickCommands, configuredCommands, List.append_assoc]
    rfl
  rw [hsplit]
  exact List.perm_append_comm_assoc _ _ _

theorem tickCommands_nodup {places : List Nat} (h : places.Nodup) : (tickCommands places).Nodup := by
  have hplaces : (places.flatMap fun i => [Instr.entryFallsDue i, .entryExpiry i]).Nodup := by
    refine List.nodup_flatMap.2 ⟨fun i _ => by simp, h.imp fun hne => ?_⟩
    simp [Function.onFun, hne.symm]
  have hfixed : (tickCommands []).Nodup := by decide
  refine (tickCommands_perm places).nodup_iff.2 (List.nodup_append.2 ⟨hplaces, hfixed, fun j hj k hk => ?_⟩)
  obtain ⟨i, -, hj⟩ := List.mem_flatMap.1 hj
  rintro rfl
  simp only [List.mem_cons, List.not_mem_nil, or_false] at hj
  obtain rfl | rfl := hj <;> simp [tickCommands, configuredCommands] at hk

theorem channelEvents_sublist (second : Bool) (u : ChannelUnit) (c : Channel) : (channelEvents second u c).Sublist
    [.dwellEnd c, .delayEnd c, .runEnd c, .portionEnd c, .returnCountdownExpiry c] := by
  have hrecord : (if second then recordEvents c u.override.imposed else []).Sublist
      [.delayEnd c, .runEnd c, .portionEnd c] := by
    split_ifs
    exacts [recordEvents_sublist _ _, List.nil_sublist _]
  exact ((whenever_sublist _ (.dwellEnd c)).append hrecord).append (whenever_sublist _ (.returnCountdownExpiry c))

theorem State.monitorEvents_sublist (s : State) : s.monitorEvents.Sublist
    [.mainsNoCrossing, .mainsFreqRaise, .mainsFreqClear, .silenceExpiry, .stepHoldExpiry] :=
  ((((whenever_sublist _ _).append (whenever_sublist _ _)).append (whenever_sublist _ _)).append
    (whenever_sublist _ _)).append (whenever_sublist _ _)

theorem State.configuredEvents_sublist (cfg : Configuration) (s : State) :
    (s.configuredEvents cfg).Sublist (configuredCommands (s.relay.heard.zipIdx.map Prod.snd)) := by
  rw [configuredCommands, List.flatMap_map]
  exact (((((whenever_sublist _ _).append (whenever_sublist _ _)).append (List.Sublist.flatMap_right _ fun p _ =>
      (whenever_sublist _ _).append (whenever_sublist _ _))).append (whenever_sublist _ _)).append
    (List.Sublist.flatMap_right _ fun c _ => channelEvents_sublist _ _ c)).append s.monitorEvents_sublist

theorem State.tickEvents_sublist (s : State) :
    s.tickEvents.Sublist (tickCommands (s.relay.heard.zipIdx.map Prod.snd)) := by
  have htime : s.timeEvents.Sublist [.clockAdvance, .holdCountdownExpiry, .lostCountdownExpiry] :=
    .cons_cons _ ((whenever_sublist _ _).append (whenever_sublist _ _))
  have hloader : s.loaderEvents.Sublist [.readRetry] := by
    unfold State.loaderEvents
    split
    exacts [whenever_sublist _ _, List.nil_sublist _]
  have hstatus : s.statusEvents.Sublist [.emissionEnd, .statusSecondEnd] :=
    (whenever_sublist _ _).append (whenever_sublist _ _)
  refine ((htime.append hloader).append ?_).append hstatus
  split
  exacts [s.configuredEvents_sublist _, List.nil_sublist _, List.nil_sublist _]

theorem State.tickEvents_nodup (s : State) : s.tickEvents.Nodup :=
  s.tickEvents_sublist.nodup (tickCommands_nodup (List.nodup_zipIdx_map_snd _))

/-! ## What is due -/

section
variable {cfg : Configuration} {s : State} {j : Instr}

theorem State.mem_tickEvents_of_configured (hl : s.loader.load = .configured cfg) : j ∈ s.tickEvents ↔
    j ∈ s.timeEvents ∨ j ∈ s.relayEvents cfg ∨
      j = .assemblyTimeout ∧ ((0 < s.elapsed ∧ s.elapsed % 100 = 0) ∧ s.programs.staging ≠ none) ∨
      (∃ c, j ∈ channelEvents (endsSecond s.elapsed) (s.channels.get c) c) ∨ j ∈ s.monitorEvents ∨
      j ∈ s.statusEvents := by
  have hloader : s.loaderEvents = [] := by rw [State.loaderEvents, hl]
  simp only [State.tickEvents, hloader, hl, State.configuredEvents, List.mem_append, List.append_nil, mem_whenever,
    List.mem_flatMap, mem_channelList, true_and, endsSecond_iff, Bool.and_eq_true, Option.isSome_iff_ne_none, or_assoc]

end

/-- Settles O3: no event twice by `State.tickEvents_nodup`, and each block's events by its own lemma. -/
theorem tickQueuesWhatIsDue : Obligations.TickQueuesWhatIsDue := by
  intro s due second sent
  refine ⟨s.tickEvents_nodup, fun cfg hl => ?_, fun hl i => ?_, fun hl i => ?_⟩
  · have hdue : ∀ i, due i ↔ _ := fun i => State.mem_tickEvents_of_configured (j := i) hl
    simp only [hdue, State.mem_timeEvents, State.mem_relayEvents, mem_placeEvents, mem_channelEvents,
      mem_recordEvents, State.mem_monitorEvents, State.mem_statusEvents, hl, endsSecond_iff]
    refine ⟨fun i h => ?_, ?_⟩
    · cases i <;> simp [fromOutside] at h <;> simp
    · simp [second, sent]
  · have hdue : due i ↔ i ∈ s.timeEvents ∨ i ∈ s.loaderEvents ∨ i ∈ s.statusEvents := by
      simp only [due, State.tickEvents, hl, List.append_nil, List.mem_append, or_assoc]
    have hloader : i ∈ s.loaderEvents ↔ i = .readRetry ∧ ∃ at_, s.loader.retryAt = some at_ ∧ at_ ≤ s.elapsed := by
      rw [State.loaderEvents, hl]
      cases s.loader.retryAt <;> simp [mem_whenever]
    rw [hdue, hloader, State.mem_timeEvents, State.mem_statusEvents, hl]
    simp [second, sent, or_assoc]
  · have hdue : due i ↔ i ∈ s.timeEvents ∨ i ∈ s.statusEvents := by
      simp only [due, State.tickEvents, State.loaderEvents, hl, List.append_nil, List.mem_append]
    rw [hdue, State.mem_timeEvents, State.mem_statusEvents, hl]
    simp [second, sent]

end Sys2Proof.Machine
end

section
/-! PROOF. The channel unit (chapters 7 to 9): its output under requests, the level handed when it is worked out
afresh, and its state under the conditions and the two safe orders. -/

namespace Sys2Proof.Machine

/-! ## The output under a request -/

section
variable (cc : ChannelConfig) {l : Level} {w : Work}

theorem ChannelUnit.holdsOutput_iff (u : ChannelUnit) : u.holdsOutput cc = true ↔
    cc.used = true ∧ cc.input = .hold ∧ u.input.qualification = .asserted := by
  cases h : cc.used <;> simp [ChannelUnit.holdsOutput, ChannelConfig.inputUse, h]

theorem Work.request_of_same (h : l = w.unit.output) : w.request cc l = w.put { w.unit with deferred := none } :=
  if_pos h

theorem Work.request_of_free (h : l ≠ w.unit.output) (hdwell : w.unit.dwell = 0)
    (hfree : w.unit.holdsOutput cc = false) : w.request cc l = w.drive cc l := by
  rw [Work.request, if_neg h, if_pos (by simp [hdwell, hfree])]

theorem Work.request_of_bound (h : l ≠ w.unit.output) (hbound : 0 < w.unit.dwell ∨ w.unit.holdsOutput cc = true) :
    w.request cc l = w.put { w.unit with deferred := some l } := by
  rw [Work.request, if_neg h, if_neg]
  rw [Bool.and_eq_true, decide_eq_true_eq, Bool.not_eq_true']
  rintro ⟨hdwell, hfree⟩
  rcases hbound with hpos | hholds
  · omega
  · simp [hholds] at hfree

theorem Work.fallbackEntry_of_same (h : cc.safe = w.unit.output) :
    w.fallbackEntry cc = w.put { w.unit with deferred := none } := by
  unfold Work.fallbackEntry
  rw [Work.request_of_same cc h, if_pos h, ite_self]

theorem Work.fallbackEntry_of_free (hfree : w.unit.holdsOutput cc = false) (h : cc.safe ≠ w.unit.output) :
    w.fallbackEntry cc = w.drive cc cc.safe := by
  rw [Work.fallbackEntry, if_neg (by simp [hfree]), if_neg h]

theorem Work.fallbackEntry_of_held (hheld : w.unit.holdsOutput cc = true) (h : cc.safe ≠ w.unit.output) :
    w.fallbackEntry cc = w.put { w.unit with deferred := some cc.safe } := by
  rw [Work.fallbackEntry, if_pos hheld, Work.request_of_bound cc h (.inr hheld)]

/-- What an entry into FALLBACK_HOLD makes of the output (R174). -/
theorem Work.fallbackEntry_output (w : Work) :
    (w.unit.holdsOutput cc = false →
      (w.fallbackEntry cc).unit.output = cc.safe ∧ (w.fallbackEntry cc).unit.deferred = none) ∧
    (w.unit.holdsOutput cc = true → (w.fallbackEntry cc).unit.output = w.unit.output) := by
  by_cases h : cc.safe = w.unit.output
  · rw [Work.fallbackEntry_of_same cc h]
    exact ⟨fun _ => ⟨h.symm, rfl⟩, fun _ => rfl⟩
  · refine ⟨fun hfree => ?_, fun hheld => ?_⟩
    · rw [Work.fallbackEntry_of_free cc hfree h]
      exact ⟨rfl, rfl⟩
    · rw [Work.fallbackEntry_of_held cc hheld h]
      rfl

theorem Work.request_changed (h : w.changed = true) : (w.request cc l).changed = true := by
  unfold Work.request
  split_ifs
  exacts [h, rfl, h]

theorem Work.fallbackEntry_changed (h : w.changed = true) : (w.fallbackEntry cc).changed = true := by
  unfold Work.fallbackEntry
  split_ifs
  exacts [Work.request_changed cc h, h, rfl]

end

/-- Settles O48. -/
theorem outputsTakeRequests : Obligations.OutputsTakeRequests := by
  intro cc l u driven requested entered
  refine ⟨fun h => Work.request_of_same (w := Work.idle u) cc h, fun h hdwell hfree => ?_,
    fun h hbound => Work.request_of_bound (w := Work.idle u) cc h hbound,
    fun hfree h => Work.fallbackEntry_of_free (w := Work.idle u) cc hfree h,
    fun h => Work.fallbackEntry_of_same (w := Work.idle u) cc h,
    fun hheld h => Work.fallbackEntry_of_held (w := Work.idle u) cc hheld h, ChannelUnit.holdsOutput_iff cc u⟩
  exact Work.request_of_free (w := Work.idle u) cc h hdwell hfree

/-! ## The level worked out afresh (R143) -/

section
variable (cc : ChannelConfig) {w : Work}

/-- Once a level was handed, the level last handed is the requested one. -/
theorem Work.rework_handed (h : w.unit.handed ≠ none) :
    (w.rework cc).unit.handed = some ((w.rework cc).unit.requested cc) := by
  obtain ⟨l, hl⟩ := Option.ne_none_iff_exists'.1 h
  rw [ChannelUnit.requested_congr cc (Work.rework_state cc w)
    (by rw [Work.rework_override]) (Work.rework_band cc w)]
  rw [Work.rework, hl]
  dsimp only
  split_ifs with heq
  · rw [hl, heq]
  · exact Work.request_handed ..

theorem Work.rework_changed (h : w.changed = true) : (w.rework cc).changed = true := by
  unfold Work.rework
  split
  · exact h
  · dsimp only
    split_ifs
    exacts [h, Work.request_changed cc h]

theorem Work.enterNormal_changed (w : Work) : (w.enterNormal cc).changed = true := Work.rework_changed cc rfl

theorem Work.enterNormal_handed (h : w.unit.handed ≠ none) :
    (w.enterNormal cc).unit.handed = some ((w.enterNormal cc).unit.requested cc) := Work.rework_handed cc h

theorem Work.enterHold_changed (w : Work) : (w.enterHold cc).changed = true := Work.fallbackEntry_changed cc rfl

theorem Work.enterHold_output (w : Work) :
    (w.unit.holdsOutput cc = false →
      (w.enterHold cc).unit.output = cc.safe ∧ (w.enterHold cc).unit.deferred = none) ∧
    (w.unit.holdsOutput cc = true → (w.enterHold cc).unit.output = w.unit.output) :=
  Work.fallbackEntry_output cc (w.report { w.unit with state := .fallbackHold, handed := some cc.safe })

end

/-! ## A change of condition (R157 to R160) -/

section
variable {cc : ChannelConfig} {slot : Nat} {active : Conditions} {w : Work}

theorem ChannelUnit.effective_iff (u : ChannelUnit) : u.effective cc active = true ↔
    u.forced = true ∨ ∃ j, active.get j = true ∧ cc.mask.get j = true := by
  rw [ChannelUnit.effective, Bool.or_eq_true, Conditions.meets_iff]

theorem Work.conditionRaised_of_hold (h : w.unit.state = .fallbackHold) : w.conditionRaised cc = w := if_pos h

theorem Work.conditionRaised_of_not_hold (h : w.unit.state ≠ .fallbackHold) :
    w.conditionRaised cc = w.enterHold cc := if_neg h

theorem Work.conditionCleared_of_leaving (h : w.unit.state = .fallbackHold) (he : w.unit.effective cc active = false) :
    w.conditionCleared cc slot active = w.leaveHold cc slot := by
  rw [Work.conditionCleared, if_pos (by simp [h, he])]

theorem Work.conditionCleared_of_staying (h : w.unit.state ≠ .fallbackHold ∨ w.unit.effective cc active = true) :
    w.conditionCleared cc slot active = w := by
  rw [Work.conditionCleared, if_neg]
  rw [Bool.and_eq_true, decide_eq_true_eq, Bool.not_eq_true']
  rintro ⟨hs, he⟩
  obtain h | h := h
  · exact h hs
  · simp [he] at h

/-- What a channel let go becomes, by its flag and its return countdown (R159 to R161). -/
theorem Work.leaveHold_spec (cc : ChannelConfig) (slot : Nat) (w : Work) :
    (w.leaveHold cc slot).changed = true ∧
    (cc.noAutoReturn = true → (w.leaveHold cc slot).unit = { w.unit with state := .releaseWait }) ∧
    (cc.noAutoReturn = false → 0 < cc.returnSeconds slot → (w.leaveHold cc slot).unit =
      { w.unit with state := .returnWait (cc.returnSeconds slot), returnSet := true }) ∧
    (cc.noAutoReturn = false → cc.returnSeconds slot = 0 → (w.leaveHold cc slot).unit.state = .normal ∧
      (w.unit.handed ≠ none →
        (w.leaveHold cc slot).unit.handed = some ((w.leaveHold cc slot).unit.requested cc))) := by
  cases hauto : cc.noAutoReturn with
  | true =>
    rw [Work.leaveHold, if_pos hauto]
    exact ⟨rfl, fun _ => rfl, fun h => Bool.noConfusion h, fun h => Bool.noConfusion h⟩
  | false =>
    rw [Work.leaveHold, if_neg (by simp [hauto]), Work.beginReturn]
    by_cases hzero : cc.returnSeconds slot = 0
    · rw [if_pos hzero]
      exact ⟨Work.enterNormal_changed cc w, fun h => Bool.noConfusion h, fun _ hpos => absurd hzero hpos.ne',
        fun _ _ => ⟨Work.enterNormal_state cc w, Work.enterNormal_handed cc⟩⟩
    · rw [if_neg hzero]
      exact ⟨rfl, fun h => Bool.noConfusion h, fun _ _ => rfl, fun _ h => absurd h hzero⟩

/-- What an entry into FALLBACK_HOLD makes of a channel (R158). -/
theorem Work.enterHold_spec (cc : ChannelConfig) (w : Work) :
    (w.enterHold cc).unit.state = .fallbackHold ∧ (w.enterHold cc).unit.handed = some cc.safe ∧
    (w.unit.holdsOutput cc = false →
      (w.enterHold cc).unit.output = cc.safe ∧ (w.enterHold cc).unit.deferred = none) ∧
    (w.unit.holdsOutput cc = true → (w.enterHold cc).unit.output = w.unit.output) :=
  ⟨w.enterHold_state cc, w.enterHold_handed cc, Work.enterHold_output cc w⟩

end

/-- Settles O44: a raised condition by `Work.enterHold_spec`, and a cleared one by `Work.leaveHold_spec`. -/
theorem conditionsActOnAChannel : Obligations.ConditionsActOnAChannel := by
  intro cc slot active k u done seconds anyActive
  have hseconds : cc.returnSeconds slot = seconds := rfl
  have heffective : u.effective cc active = true ↔ anyActive := ChannelUnit.effective_iff u
  have hdone : cc.used = true → cc.mask.get k = true → done = if active.get k then (Work.idle u).conditionRaised cc
      else (Work.idle u).conditionCleared cc slot active := fun hu hk => if_pos (by simp [hu, hk])
  refine ⟨Work.stationCondition_override .., Work.stationCondition_input .., Work.stationCondition_forced ..,
    Work.stationCondition_applied .., Work.stationCondition_refused .., fun hout => if_neg ?_, fun hu hk =>
    ⟨fun ha hhold => ?_, fun ha hnot => ?_, fun ha hstay => ?_, fun ha hhold hnone => ?_⟩⟩
  · rw [Bool.and_eq_true]
    rintro ⟨hu, hk⟩
    simp [hu, hk] at hout
  · rw [hdone hu hk, if_pos ha]
    exact Work.conditionRaised_of_hold (w := Work.idle u) hhold
  · rw [hdone hu hk, if_pos ha, Work.conditionRaised_of_not_hold (w := Work.idle u) hnot]
    obtain ⟨hstate, hhanded, hfree, hheld⟩ := (Work.idle u).enterHold_spec cc
    exact ⟨hstate, hhanded, Work.enterHold_changed cc _, hfree, hheld⟩
  · rw [hdone hu hk, if_neg (by simp [ha])]
    exact Work.conditionCleared_of_staying (w := Work.idle u) (hstay.imp_right heffective.2)
  · rw [hdone hu hk, if_neg (by simp [ha]), Work.conditionCleared_of_leaving (w := Work.idle u) hhold
      (Bool.eq_false_iff.2 fun he => hnone (heffective.1 he))]
    exact (Work.idle u).leaveHold_spec cc slot

/-! ## The two safe orders (R156, R162) -/

section
variable {cc : ChannelConfig} {slot : Nat} {active : Conditions} {origin : Byte} {serial : Word} {on : Bool} {w : Work}

/-- A newer FORCE SAFE or clear of the same origin stands (R156). -/
theorem setter_superseded_iff {setter : Option (Byte × Word)} :
    supersededBy (setter.map fun p => .remote p.1 p.2) origin serial = true ↔
      ∃ o n, setter = some (o, n) ∧ o = origin ∧ newer n serial = true := by
  cases setter with
  | none => simp [supersededBy]
  | some p =>
    obtain ⟨o, n⟩ := p
    simp [supersededBy]

/-- A FORCE SAFE that is taken writes the flag and its setter, and a change of the flag acts as an effective
condition does (R156, R157). -/
theorem Work.forceSafe_of_taken {u : ChannelUnit} (hu : cc.used = true)
    (hs : ¬ ∃ o n, u.setter = some (o, n) ∧ o = origin ∧ newer n serial = true) :
    (Work.idle u).forceSafe cc slot active origin serial on =
      if u.forced = on then ⟨{ u with forced := on, setter := some (origin, serial) }, false, 1, 0⟩
      else if on then (Work.conditionRaised cc
        ⟨{ u with forced := on, setter := some (origin, serial) }, true, 0, 0⟩).countApplied
      else (Work.conditionCleared cc slot active
        ⟨{ u with forced := on, setter := some (origin, serial) }, true, 0, 0⟩).countApplied := by
  rw [Work.forceSafe, if_pos hu]
  exact if_neg fun h => hs (setter_superseded_iff.1 h)

theorem Work.forceSafe_of_superseded (hu : cc.used = true)
    (hs : ∃ o n, w.unit.setter = some (o, n) ∧ o = origin ∧ newer n serial = true) :
    w.forceSafe cc slot active origin serial on = w.countRefused := by
  rw [Work.forceSafe, if_pos hu, if_pos (setter_superseded_iff.2 hs)]

theorem Work.conditionRaised_changed (h : w.changed = true) : (w.conditionRaised cc).changed = true := by
  unfold Work.conditionRaised
  split_ifs
  exacts [h, Work.enterHold_changed cc w]

theorem Work.conditionCleared_changed (h : w.changed = true) : (w.conditionCleared cc slot active).changed = true := by
  unfold Work.conditionCleared
  split_ifs
  exacts [(w.leaveHold_spec cc slot).1, h]

end

/-- Settles O45: a change of FORCED by the lemmas of a changed condition, and RELEASE by `Work.enterNormal_handed`. -/
theorem forceSafeAndRelease : Obligations.ForceSafeAndRelease := by
  intro cc slot active origin serial u forced released seconds superseded
  refine ⟨fun hu => ⟨fun on => if_neg (by simp [hu]), if_neg (by simp [hu])⟩,
    fun hu hs on => Work.forceSafe_of_superseded (w := Work.idle u) hu hs, fun hu hs on => ?_, fun hu => ?_⟩
  · have hforced : forced on = _ := Work.forceSafe_of_taken hu hs
    obtain ⟨hflag, hsetter, happlied, hrefused⟩ : (forced on).unit.forced = on ∧
        (forced on).unit.setter = some (origin, serial) ∧ (forced on).applied = 1 ∧ (forced on).refused = 0 := by
      rw [hforced]
      split_ifs <;> simp
    refine ⟨hflag, hsetter, Work.forceSafe_override .., happlied, hrefused, fun hsame => ?_, fun hother => ?_,
      fun hclear hon => ?_, fun hset hoff => ?_⟩
    · rw [hforced, if_pos hsame]
      cases hsame
      rfl
    · rw [hforced, if_neg hother]
      split_ifs
      exacts [Work.conditionRaised_changed rfl, Work.conditionCleared_changed rfl]
    · rw [hforced, if_neg (by simp [hclear, hon]), if_pos hon]
      refine ⟨fun hhold => ?_, fun hnot => ?_⟩
      · rw [Work.conditionRaised_of_hold (cc := cc) hhold]
        rfl
      · rw [Work.conditionRaised_of_not_hold (cc := cc) hnot]
        exact Work.enterHold_spec cc _
    · rw [hforced, if_neg (by simp [hset, hoff]), if_neg (by simp [hoff])]
      have heffective : ChannelUnit.effective cc active { u with forced := on, setter := some (origin, serial) } = true ↔
          ∃ j, active.get j = true ∧ cc.mask.get j = true := by
        rw [ChannelUnit.effective_iff, hoff]
        simp
      refine ⟨fun hstay => ?_, fun hhold hnone => ?_⟩
      · rw [Work.conditionCleared_of_staying (cc := cc) (hstay.imp_right heffective.2)]
        rfl
      · rw [Work.conditionCleared_of_leaving (cc := cc) hhold (Bool.eq_false_iff.2 fun he => by
          obtain ⟨j, ha, hm⟩ := heffective.1 he
          simp [hnone j ha] at hm)]
        exact (Work.leaveHold_spec cc slot _).2
  · have hreleased : released = _ := if_pos hu
    refine ⟨fun hwait => ?_, fun hhold => ?_, fun hnormal => ?_⟩
    · have henter : released = ((Work.idle u).enterNormal cc).countApplied := by
        rw [hreleased]
        obtain ⟨n, hn⟩ | hn := hwait <;> simp only [Work.idle_unit, hn]
      rw [henter]
      exact ⟨Work.enterNormal_state .., Work.enterNormal_changed .., by simp, by simp, Work.enterNormal_override ..,
        Work.enterNormal_handed (w := Work.idle u) cc⟩
    · rw [hreleased]
      simp only [Work.idle_unit, hhold]
      rfl
    · rw [hreleased]
      simp only [Work.idle_unit, hnormal]

end Sys2Proof.Machine
end

section
/-! PROOF. The orders at one channel's override record, and the record's step at an elapsed second (chapter 7). -/

namespace Sys2Proof.Machine

/-! ## An order at one channel (R124 to R126) -/

theorem supersededBy_iff_distance {src : Option Source} {origin : Byte} {serial : Word} :
    supersededBy src origin serial = true ↔ match src with
      | none | some .boost => False
      | some (.remote by_ held) => by_ = origin ∧ 1 ≤ (held - serial).toNat ∧ (held - serial).toNat ≤ 32767 := by
  match src with
  | none => simp [supersededBy]
  | some .boost => simp [supersededBy]
  | some (.remote by_ held) => simp [supersededBy, newer_iff]

section
variable {cc : ChannelConfig} {slot age : Nat} {origin : Byte} {serial : Word} {o : ChannelOrder} {u : ChannelUnit}
  {i : Imposed}

theorem Work.order_of_unused (hu : cc.used = false) (w : Work) : w.order cc slot origin serial age o = w :=
  if_neg (by simp [hu])

theorem Work.order_of_superseded (hu : cc.used = true) (hs : supersededBy u.override.source origin serial = true) :
    (Work.idle u).order cc slot origin serial age o = ⟨u, false, 0, 1⟩ := by
  rw [Work.order, if_pos hu]
  exact if_pos hs

theorem Work.order_of_refused (hu : cc.used = true) (hs : supersededBy u.override.source origin serial ≠ true)
    (hj : o.judge slot age u.override.imposed = none) :
    (Work.idle u).order cc slot origin serial age o = ⟨u, false, 0, 1⟩ := by
  rw [Work.order, if_pos hu]
  refine (if_neg hs).trans ?_
  rw [Work.idle_unit, hj]
  rfl

theorem Work.impose_changed (h : i.kind ≠ u.override.imposed.kind) : ((Work.idle u).impose i).changed = true := by
  rw [Work.impose]
  exact congrArg Work.changed (if_neg h)

/-- An order that is taken writes the record, with its source, and is counted applied (R126, R129). -/
theorem Work.order_of_taken (hu : cc.used = true) (hs : supersededBy u.override.source origin serial ≠ true)
    (hj : o.judge slot age u.override.imposed = some i) :
    let done := (Work.idle u).order cc slot origin serial age o
    done.unit.override = ⟨i, some (.remote origin serial)⟩ ∧ done.applied = 1 ∧ done.refused = 0 ∧
      (i.kind ≠ u.override.imposed.kind → done.changed = true) := by
  intro done
  have hdone : done = ((((Work.idle u).impose i).wroteBy (.remote origin serial)).rework cc).countApplied := by
    change Work.order .. = _
    rw [Work.order, if_pos hu]
    refine (if_neg hs).trans ?_
    rw [Work.idle_unit, hj]
  have himposed : done.unit.override.imposed = i := by rw [hdone]; simp
  have hsource : done.unit.override.source = some (.remote origin serial) := by rw [hdone]; simp
  refine ⟨?_, by rw [hdone]; simp, by rw [hdone]; simp, fun hk => ?_⟩
  · rw [← himposed, ← hsource]
  · rw [hdone]
    exact Work.rework_changed cc (Work.impose_changed hk)

end

theorem Imposed.kind_eq_force {i : Imposed} {l : Level} {p : Phase} :
    i.kind = (Imposed.force l p).kind ↔ ∃ q, i = .force l q := by
  cases i with
  | none => cases l <;> simp [Imposed.kind]
  | force m q => cases l <;> cases m <;> simp [Imposed.kind]
  | cycle f => cases l <;> simp [Imposed.kind]

/-! ## SWITCH (R128) -/

section
variable {slot age delay spread duration : Nat} {level : Level}

theorem switchRecord_of_early (h : age / 100 < delay * 60 + stagger spread slot) :
    switchRecord slot age level delay spread duration = some (.force level
      (.delay (min Config.most16 (delay * 60 + stagger spread slot - age / 100)) (runOf duration))) := if_pos h

theorem switchRecord_of_endless (h : delay * 60 + stagger spread slot ≤ age / 100) :
    switchRecord slot age level delay spread 0 = some (.force level (.run .indefinite)) := by
  rw [switchRecord]
  exact (if_neg (Nat.not_lt.2 h)).trans (if_pos rfl)

theorem switchRecord_of_late (h : delay * 60 + stagger spread slot ≤ age / 100) (hd : 0 < duration) :
    switchRecord slot age level delay spread duration =
      if age / 100 - (delay * 60 + stagger spread slot) < duration * 60 then some (.force level
        (.run (.left (duration * 60 - (age / 100 - (delay * 60 + stagger spread slot)))))) else none := by
  rw [switchRecord]
  exact (if_neg (Nat.not_lt.2 h)).trans (if_neg hd.ne')

end

/-- Settles O39: the four cases of `switchRecord`, each taken by `Work.order_of_taken` or refused. -/
theorem switchFallsIntoFourCases : Obligations.SwitchFallsIntoFourCases := by
  intro cc slot age delay spread duration level origin serial u hu hslot hdelay hspread hduration superseded hsup a d r
    done written
  have hs : supersededBy u.override.source origin serial ≠ true := fun h => hsup (supersededBy_iff_distance.1 h)
  have hd : d = delay * 60 + stagger spread slot := rfl
  have hwritten : ∀ phase, switchRecord slot age level delay spread duration = some (.force level phase) →
      written phase := fun phase hj => by
    obtain ⟨hoverride, happlied, hrefused, hchanged⟩ :=
      Work.order_of_taken (o := .switch level delay spread duration) (u := u) hu hs hj
    refine ⟨hoverride, fun hold => hchanged fun hkind => ?_, happlied, hrefused⟩
    obtain ⟨q, hq⟩ := Imposed.kind_eq_force.1 hkind.symm
    exact hold q hq
  refine ⟨?_, fun hlt => hwritten _ (switchRecord_of_early hlt), fun hle hzero => hwritten _ ?_,
    fun hle hpos hlt => hwritten _ ?_, fun hle hpos hge => ?_⟩
  · have := stagger_le hspread hslot
    omega
  · subst hzero
    exact switchRecord_of_endless hle
  · rw [switchRecord_of_late hle hpos]
    exact if_pos hlt
  · refine Work.order_of_refused hu hs ?_
    exact (switchRecord_of_late hle hpos).trans (if_neg (Nat.not_lt.2 hge))

/-! ## CYCLE, ADJUST and CANCEL (R133, R134, R137 to R139) -/

theorem cyclePosition_lt {slot off on : Nat} {spread : Bool} (hs : slot ≤ 255) (hoff : 10 ≤ off) :
    cyclePosition slot off on spread < off + on := by
  unfold cyclePosition
  split_ifs
  · refine (Nat.div_lt_iff_lt_mul (by decide)).2 ?_
    have : (off + on) * slot ≤ (off + on) * 255 := Nat.mul_le_mul_left _ hs
    omega
  · omega

/-- The cycle a taken order starts with, at a position within its period (R133). -/
def startedCycle (p off on : Nat) (r : Run) : Imposed :=
  if p < off then .cycle ⟨off, on, .off, off - p, r, none, false⟩ else .cycle ⟨off, on, .on, off + on - p, r, none, false⟩

theorem cycleRecord_eq (slot age off on duration : Nat) (spread : Bool) :
    cycleRecord slot age off on duration spread =
      if duration = 0 then some (startedCycle (cyclePosition slot off on spread) off on .indefinite)
      else if age / 100 < duration * 60 then
        some (startedCycle (cyclePosition slot off on spread) off on (.left (duration * 60 - age / 100)))
      else none := rfl

theorem judge_cycle_atOnce {slot age off on duration : Nat} {spread immediate : Bool} {i : Imposed}
    (h : immediate = true ∨ ∀ f, i ≠ .cycle f) :
    (ChannelOrder.cycle off on duration spread immediate).judge slot age i =
      cycleRecord slot age off on duration spread := by
  cases i with
  | none => rfl
  | force l p => rfl
  | cycle f =>
    obtain himm | hnot := h
    · exact if_pos himm
    · exact absurd rfl (hnot f)

theorem Imposed.runLength_cycle (f : Cycle) : (Imposed.cycle f).runLength = match f.run with
    | .left n => some n
    | .indefinite => Option.none := by
  obtain ⟨off, on, portion, left, run, staged, finish⟩ := f
  cases run <;> rfl

theorem Imposed.adjust_of_runLength {i : Imposed} {n : Nat} (change : Int) (h : i.runLength = some n) :
    ((n : Int) + change ≤ 0 → i.adjust change = some .none) ∧
    (0 < (n : Int) + change → i.adjust change =
      some (i.setRunLength (min Config.most16 ((n : Int) + change).toNat))) := by
  rw [Imposed.adjust, h]
  exact ⟨fun hle => congrArg some (if_pos hle), fun hpos => congrArg some (if_neg (Int.not_le.2 hpos))⟩

theorem Imposed.adjust_of_absent {i : Imposed} (change : Int) (h : i.runLength = Option.none) : i.adjust change = Option.none := by
  rw [Imposed.adjust, h]
  rfl

/-- Settles O40: what `ChannelOrder.judge` makes of each kind of record, taken by `Work.order_of_taken`. -/
theorem ordersActOnTheRecord : Obligations.OrdersActOnTheRecord := by
  intro cc slot age origin serial u hslot superseded done refused leaves
  refine ⟨fun hu o => Work.order_of_unused hu _,
    fun hu hsup o => Work.order_of_superseded hu (supersededBy_iff_distance.2 hsup), fun hu hsup => ?_⟩
  have hs : supersededBy u.override.source origin serial ≠ true := fun h => hsup (supersededBy_iff_distance.1 h)
  have hleaves : ∀ o i, o.judge slot age u.override.imposed = some i → leaves o i := fun o i hj =>
    Work.order_of_taken hu hs hj
  have hrefused : ∀ o, o.judge slot age u.override.imposed = none → refused o := fun o hj =>
    Work.order_of_refused hu hs hj
  refine ⟨?_, ?_,
    fun hn finish => hleaves _ _ (by rw [ChannelOrder.judge, hn]; rfl),
    fun l phase hf finish => hleaves _ _ (by rw [ChannelOrder.judge, hf]; rfl), fun f hf =>
    ⟨hleaves _ _ (by rw [ChannelOrder.judge, hf]; rfl), hleaves _ _ (by rw [ChannelOrder.judge, hf]; rfl)⟩⟩
  · intro off on duration spread immediate hoff hon o p atOnce starts
    have hstarts : ∀ r, o.judge slot age u.override.imposed = some (startedCycle p off on r) → starts r := fun r hj =>
      ⟨cyclePosition_lt hslot hoff, fun hlt => hleaves _ _ (hj.trans (congrArg some (if_pos hlt))),
        fun hle => hleaves _ _ (hj.trans (congrArg some (if_neg (Nat.not_lt.2 hle))))⟩
    refine ⟨fun hnow hzero => hstarts _ ?_, fun hnow hpos hlt => hstarts _ ?_, fun hnow hpos hle => hrefused _ ?_,
      fun f hf hlater => hleaves _ _ ?_⟩
    · rw [judge_cycle_atOnce hnow, cycleRecord_eq, if_pos hzero]
      rfl
    · rw [judge_cycle_atOnce hnow, cycleRecord_eq, if_neg hpos.ne', if_pos hlt]
      rfl
    · rw [judge_cycle_atOnce hnow, cycleRecord_eq, if_neg hpos.ne', if_neg (Nat.not_lt.2 hle)]
    · rw [hf]
      exact if_neg (by simp [hlater])
  · intro minutes o changes
    have hchanges : ∀ n made, u.override.imposed.runLength = some n →
        (∀ m, u.override.imposed.setRunLength m = made m) → changes n made := fun n made hn hmade => by
      obtain ⟨hends, hstays⟩ := Imposed.adjust_of_runLength (minutes * 60) hn
      exact ⟨fun hle => hleaves _ _ (hends hle), fun hpos => hleaves _ _ (by rw [← hmade]; exact hstays hpos)⟩
    have habsent : u.override.imposed.runLength = none → refused o := fun hn =>
      hrefused o (Imposed.adjust_of_absent _ hn)
    refine ⟨fun hi => habsent ?_, fun l d hi => habsent ?_, fun l hi => habsent ?_, fun f hi hr => habsent ?_,
      fun l d n hi => hchanges n (fun m => .force l (.delay d (.left m))) ?_ fun m => ?_,
      fun l n hi => hchanges n (fun m => .force l (.run (.left m))) ?_ fun m => ?_,
      fun f n hi hr => hchanges n (fun m => .cycle { f with run := .left m }) ?_ fun m => ?_⟩
    · rw [hi]
      rfl
    · rw [hi]
      rfl
    · rw [hi]
      rfl
    · rw [hi, Imposed.runLength_cycle, hr]
    · rw [hi]
      rfl
    · rw [hi]
      rfl
    · rw [hi]
      rfl
    · rw [hi]
      rfl
    · rw [hi, Imposed.runLength_cycle, hr]
    · rw [hi]
      rfl

/-! ## The step of a record at an elapsed second (R130, R131, R135) -/

theorem Imposed.kind_eq_zero {i : Imposed} : i.kind = 0 ↔ i = .none := by
  cases i with
  | none => simp [Imposed.kind]
  | force l p => cases l <;> simp [Imposed.kind]
  | cycle f => simp [Imposed.kind]

theorem Imposed.tick_kind (i : Imposed) (h : i.tick.2 = false) : i.tick.1.kind = i.kind := by
  cases i with
  | none => rfl
  | force l p =>
    cases p with
    | delay n r =>
      rw [Imposed.tick] at h ⊢
      split_ifs at h ⊢
      cases l <;> rfl
    | run r =>
      rw [Imposed.tick] at h ⊢
      split_ifs at h ⊢
      cases l <;> rfl
  | cycle c =>
    rw [Imposed.tick] at h ⊢
    split_ifs at h ⊢
    rfl

/-- The step of a cycle whose run goes on (R135). -/
theorem Imposed.tick_cycle_of_running {f : Cycle} (h : f.run.tick.2 = false) : (Imposed.cycle f).tick =
    if f.portionLeft ≤ 1 then (({ f with run := f.run.tick.1 } : Cycle).turn, true)
    else (.cycle { f with run := f.run.tick.1, portionLeft := f.portionLeft - 1 }, false) := by
  rw [Imposed.tick, if_neg (by simp [h])]

theorem Work.impose_of_kind {i : Imposed} {u : ChannelUnit} (h : i.kind = u.override.imposed.kind) :
    (Work.idle u).impose i = Work.idle { u with override := { u.override with imposed := i } } := if_pos h

theorem Work.impose_override (i : Imposed) (w : Work) :
    (w.impose i).unit.override = { w.unit.override with imposed := i } := by
  unfold Work.impose
  split_ifs <;> rfl

/-- What the step of a record makes of a channel (R130, R143). -/
theorem Work.recordTick_spec (cc : ChannelConfig) (u : ChannelUnit) :
    ((Work.idle u).recordTick cc).unit.override = { u.override with imposed := u.override.imposed.tick.1 } ∧
    (u.override.imposed.tick.2 = false → (Work.idle u).recordTick cc =
      Work.idle { u with override := { u.override with imposed := u.override.imposed.tick.1 } }) ∧
    (u.override.imposed.tick.2 = true → u.handed ≠ none → ((Work.idle u).recordTick cc).unit.handed =
      some (((Work.idle u).recordTick cc).unit.requested cc)) ∧
    (u.override.imposed.tick.1.kind ≠ u.override.imposed.kind → ((Work.idle u).recordTick cc).changed = true) := by
  have htick : (Work.idle u).recordTick cc = if u.override.imposed.tick.2 then
      ((Work.idle u).impose u.override.imposed.tick.1).rework cc
      else (Work.idle u).impose u.override.imposed.tick.1 := rfl
  rw [htick]
  refine ⟨?_, fun h => ?_, fun h hhanded => ?_, fun hk => ?_⟩
  · split_ifs
    · rw [Work.rework_override, Work.impose_override]
      rfl
    · exact Work.impose_override _ _
  · rw [if_neg (by simp [h])]
    exact Work.impose_of_kind (Imposed.tick_kind _ h)
  · rw [if_pos h]
    exact Work.rework_handed cc (by rwa [Work.impose_handed])
  · split_ifs
    · exact Work.rework_changed cc (Work.impose_changed hk)
    · exact Work.impose_changed hk

/-! ## An event at one channel -/

section
variable {s : State} {c : Channel} {f : ChannelUnit → Work}

theorem Six.set_get {α : Type} (v : Six α) (c : Channel) : v.set c (v.get c) = v :=
  Six.ext_get fun d => by
    rw [Six.get_set]
    split_ifs with h
    · rw [h]
    · rfl

theorem State.onChannel_of_idle (h : f (s.channels.get c) = Work.idle (s.channels.get c)) : s.onChannel c f = s := by
  unfold State.onChannel
  rw [h]
  simp only [Work.idle_unit, Work.idle_changed, Work.idle_applied, Work.idle_refused, Six.set_get, Counters.add_zero,
    Bool.or_false]

theorem State.onChannel_status_of_quiet (h : (f (s.channels.get c)).changed = false) :
    (s.onChannel c f).status = s.status := by
  rw [State.onChannel_status, h, Bool.or_false]

theorem State.onChannel_status_of_changed (h : (f (s.channels.get c)).changed = true) :
    (s.onChannel c f).status = { s.status with changePending := true } := by
  rw [State.onChannel_status, h, Bool.or_true]

theorem State.onChannel_mayNote : s.status.mayNote (s.onChannel c f).status := by
  rw [State.onChannel_status]
  exact ⟨rfl, rfl, fun h => by simp [h]⟩

end

/-- Settles O42: `Work.recordTick_spec`, with `Imposed.tick` worked out for each record. -/
theorem recordStepsAtEachSecond : Obligations.RecordStepsAtEachSecond := by
  intro s cfg c cmd hrun hcmd u
  have hafter : s.after cmd = s.onChannel c fun u => (Work.idle u).recordTick (cfg.channel c) := by
    obtain rfl | rfl | rfl := hcmd
    · rw [State.after_delayEnd, State.whenConfigured_eq hrun]
      rfl
    · rw [State.after_runEnd, State.whenConfigured_eq hrun]
      rfl
    · rw [State.after_portionEnd, State.whenConfigured_eq hrun]
      rfl
  have hframe : s.keepsAllBut [.channels, .status] (s.after cmd) := by
    obtain rfl | rfl | rfl := hcmd
    exacts [s.after_frame (.delayEnd c), s.after_frame (.runEnd c), s.after_frame (.portionEnd c)]
  rw [hafter] at hframe
  obtain ⟨hoverride, hquiet, hhanded, hchanged⟩ := Work.recordTick_spec (cfg.channel c) u
  refine ⟨_, exec_eq_next _ s, ?_⟩
  rw [hafter]
  refine ⟨fun d hd => s.onChannel_get_of_ne _ hd, hframe, ?_⟩
  rw [State.onChannel_get_self]
  intro v becomes
  have hbecomes : ∀ i event, u.override.imposed.tick = (i, event) → becomes i event := fun i event htick => by
    rw [htick] at hoverride hquiet hhanded
    refine ⟨hoverride, fun he => ?_, fun he => hhanded he⟩
    have hidle := hquiet he
    refine ⟨congrArg Work.unit hidle, State.onChannel_status_of_quiet ?_⟩
    exact congrArg Work.changed hidle
  refine ⟨Work.recordTick_state .., Work.recordTick_band .., Work.recordTick_input .., Work.recordTick_forced ..,
    Work.recordTick_setter .., State.onChannel_mayNote, fun hold hnew => ?_, fun hi => hbecomes _ _ ?_,
    fun l n r hi => ⟨fun hle => hbecomes _ _ ?_, fun hge => hbecomes _ _ ?_⟩, fun l hi => hbecomes _ _ ?_,
    fun l n hi => ⟨fun hle => hbecomes _ _ ?_, fun hge => hbecomes _ _ ?_⟩, fun f n hi hr hle => hbecomes _ _ ?_,
    fun f run hi hr => ?_⟩
  · have hkind : u.override.imposed.tick.1.kind ≠ u.override.imposed.kind := by
      have hended : u.override.imposed.tick.1 = .none := (congrArg Override.imposed hoverride).symm.trans hnew
      rw [hended]
      exact fun h => hold (Imposed.kind_eq_zero.1 h.symm)
    rw [State.onChannel_status_of_changed (hchanged hkind)]
  · rw [hi]
    rfl
  · rw [hi, Imposed.tick, if_pos hle]
  · rw [hi, Imposed.tick, if_neg (by omega)]
  · rw [hi]
    rfl
  · rw [hi, Imposed.tick, if_pos (by simpa [Run.tick] using hle)]
  · rw [hi, Imposed.tick, if_neg (by simp [Run.tick]; omega)]
    rfl
  · rw [hi, Imposed.tick, hr, if_pos (by simpa [Run.tick] using hle)]
  · have hrunning : f.run.tick = (run, false) := by
      obtain ⟨hf, hrun⟩ | ⟨n, hge, hf, hrun⟩ := hr
      · rw [hf, hrun]
        rfl
      · rw [hf, hrun, Run.tick]
        exact congrArg _ (decide_eq_false (by omega))
    have htick := Imposed.tick_cycle_of_running (f := f) (congrArg Prod.snd hrunning)
    rw [hrunning] at htick
    refine ⟨fun hge => hbecomes _ _ ?_, fun hle hoff => hbecomes _ _ ?_, fun hle hon => ⟨fun hfinish => hbecomes _ _ ?_,
      fun hfinish hstaged => hbecomes _ _ ?_, fun g hfinish hstaged => hbecomes _ _ ?_⟩⟩
    · rw [hi, htick, if_neg (by omega)]
    · rw [hi, htick, if_pos hle, Cycle.turn, hoff]
    · rw [hi, htick, if_pos hle, Cycle.turn, hon]
      simp [hfinish]
    · rw [hi, htick, if_pos hle, Cycle.turn, hon]
      simp [hfinish, hstaged]
    · rw [hi, htick, if_pos hle, Cycle.turn, hon]
      simp [hfinish, hstaged, runOf]

end Sys2Proof.Machine
end

section
/-! PROOF. A channel's dwell and local input (chapter 9). -/

namespace Sys2Proof.Machine

/-! ## The dwell (R172) -/

section
variable {cc : ChannelConfig} {u : ChannelUnit}

theorem Work.takeDeferred_of_held {w : Work} (h : w.unit.holdsOutput cc = true) : w.takeDeferred cc = w := by
  unfold Work.takeDeferred
  split
  · exact if_pos h
  · rfl

theorem Work.takeDeferred_of_free {w : Work} {l : Level} (hd : w.unit.deferred = some l)
    (h : w.unit.holdsOutput cc = false) : w.takeDeferred cc = w.drive cc l := by
  rw [Work.takeDeferred, hd]
  exact if_neg (by simp [h])

theorem Work.dwellTick_of_still (h : u.dwell = 0 ∨ u.dwellSet = true) : (Work.idle u).dwellTick cc = Work.idle u :=
  if_pos ((Bool.or_eq_true ..).mpr (h.imp_left decide_eq_true))

theorem Work.dwellTick_of_running (h : 2 ≤ u.dwell) (hs : u.dwellSet = false) :
    (Work.idle u).dwellTick cc = Work.idle { u with dwell := u.dwell - 1 } := by
  have hzero : u.dwell ≠ 0 := by omega
  have hone : u.dwell ≠ 1 := by omega
  simp only [Work.dwellTick, Work.idle_unit, hs, hzero, hone, decide_false, Bool.or_false, if_false, Bool.false_eq_true]
  rfl

theorem Work.dwellTick_of_ending (h : u.dwell = 1) (hs : u.dwellSet = false) :
    (Work.idle u).dwellTick cc = (Work.idle { u with dwell := 0 }).takeDeferred cc := by
  simp only [Work.dwellTick, Work.idle_unit, hs, h, one_ne_zero, decide_false, Bool.or_false, if_false,
    Bool.false_eq_true, if_true]
  rfl

end

/-! ## The local input (R175 to R177) -/

section
variable {cc : ChannelConfig} {u : ChannelUnit} {x : Contact}

theorem ChannelConfig.samples_iff : cc.samples = true ↔ cc.used = true ∧ cc.input ≠ .none := by
  cases h : cc.used <;> simp [ChannelConfig.samples, ChannelConfig.inputUse, h]

theorem ChannelConfig.inputUse_of_used (h : cc.used = true) : cc.inputUse = cc.input := if_pos h

theorem LocalInput.qualifies_iff (i : LocalInput) (x : Contact) :
    i.qualifies x = true ↔ i.stableAfter x = 5 ∧ i.qualification ≠ qualificationOf x := by
  simp [LocalInput.qualifies]

theorem Work.sample_of_unqualified (hc : cc.samples = true)
    (h : u.input.stableAfter x < 5 ∨ u.input.qualification = qualificationOf x) :
    (Work.idle u).sample cc x = Work.idle { u with input := ⟨u.input.qualification, x, u.input.stableAfter x⟩ } := by
  refine if_pos ?_
  rw [hc, Bool.true_and, Bool.not_eq_true', Bool.eq_false_iff, ne_eq, LocalInput.qualifies_iff]
  rintro ⟨hfive, hother⟩
  obtain h | h := h
  · exact absurd hfive h.ne
  · exact hother h

theorem Work.firstQualification_of_qualified (hc : cc.samples = true) (hfive : u.input.stableAfter x = 5)
    (h : u.input.qualification = .unknown) :
    (Work.idle u).firstQualification cc x = Work.idle { u with input := ⟨qualificationOf x, x, 5⟩ } := by
  have hq : u.input.qualifies x = true := (LocalInput.qualifies_iff _ _).2 ⟨hfive, by rw [h]; cases x <;> decide⟩
  rw [← hfive]
  exact if_pos (by simp [hc, h, hq])

/-- The state of a channel whose input has just been qualified (R175). -/
def ChannelUnit.qualified (u : ChannelUnit) (x : Contact) : ChannelUnit :=
  { u with input := ⟨qualificationOf x, x, 5⟩ }

theorem Work.qualifiedRelease_of_qualified (hc : cc.samples = true) (hfive : u.input.stableAfter .released = 5)
    (h : u.input.qualification = .asserted) : (Work.idle u).qualifiedRelease cc =
      if cc.inputUse = .hold ∧ u.dwell = 0 then (Work.idle (u.qualified .released)).takeDeferred cc
      else Work.idle (u.qualified .released) := by
  have hq : u.input.qualifies .released = true := (LocalInput.qualifies_iff _ _).2 ⟨hfive, by rw [h]; decide⟩
  rw [ChannelUnit.qualified, ← hfive]
  refine (if_pos (by simp [hc, h, hq])).trans ?_
  simp only [Bool.and_eq_true, decide_eq_true_eq]
  rfl

theorem Work.assertion_of_qualified (minutes : Nat) (hc : cc.samples = true)
    (hfive : u.input.stableAfter .asserted = 5) (h : u.input.qualification = .released) :
    (Work.idle u).assertion cc minutes =
      if cc.inputUse = .boost then (Work.idle (u.qualified .asserted)).press cc minutes
      else Work.idle (u.qualified .asserted) := by
  have hq : u.input.qualifies .asserted = true := (LocalInput.qualifies_iff _ _).2 ⟨hfive, by rw [h]; decide⟩
  rw [ChannelUnit.qualified, ← hfive]
  exact if_pos (by simp [hc, h, hq])

/-- An input that is not sampled is reached by no command (R178). -/
theorem Work.input_of_unsampled (hc : cc.samples = false) (minutes : Nat) :
    (Work.idle u).assertion cc minutes = Work.idle u ∧ (Work.idle u).qualifiedRelease cc = Work.idle u ∧
      (Work.idle u).sample cc x = Work.idle u ∧ (Work.idle u).firstQualification cc x = Work.idle u :=
  ⟨if_neg (by simp [hc]), if_neg (by simp [hc]), if_neg (by simp [hc]), if_neg (by simp [hc])⟩

/-! ## A press (R140) -/

/-- A boost runs: a FORCE_ON override whose source is the input. -/
def ChannelUnit.boosting (u : ChannelUnit) : Prop :=
  (∃ phase, u.override.imposed = .force .on phase) ∧ u.override.source = some .boost

theorem Work.press_of_boosting (minutes : Nat) (h : u.boosting) :
    (Work.idle u).press cc minutes = ((Work.idle u).impose .none).rework cc := by
  obtain ⟨⟨phase, hi⟩, hs⟩ := h
  simp only [Work.press, Work.idle_unit, hi, hs]

theorem Work.press_of_starting (minutes : Nat) (h : u.override.imposed = .none) (hs : u.state = .normal) :
    (Work.idle u).press cc minutes = (((Work.idle u).impose (.force .on (.run (.left (minutes * 60))))).wroteBy
      .boost).rework cc := by
  simp only [Work.press, Work.idle_unit, h, hs, if_true]

theorem Work.press_of_ignored (minutes : Nat) (h : ¬ u.boosting)
    (hs : ¬ (u.override.imposed = .none ∧ u.state = .normal)) : (Work.idle u).press cc minutes = Work.idle u := by
  unfold Work.press
  split
  next l hi hsource => exact absurd ⟨⟨_, hi⟩, hsource⟩ h
  next hi => exact if_neg fun hstate => hs ⟨hi, hstate⟩
  · rfl

end

/-- What a press makes of a channel (R140). -/
theorem Work.press_spec (cc : ChannelConfig) (minutes : Nat) (u : ChannelUnit) :
    let done := (Work.idle u).press cc minutes
    let starts := u.override.imposed = .none ∧ u.state = .normal
    (u.boosting → done.unit.override = ⟨.none, some .boost⟩) ∧
    (starts → done.unit.override = ⟨.force .on (.run (.left (minutes * 60))), some .boost⟩) ∧
    (u.boosting ∨ starts → done.changed = true ∧
      (u.handed ≠ none → done.unit.handed = some (done.unit.requested cc))) ∧
    (¬ u.boosting → ¬ starts → done = Work.idle u) := by
  intro done starts
  have hends : u.boosting → done = ((Work.idle u).impose .none).rework cc := Work.press_of_boosting minutes
  have hbegins : starts → done = (((Work.idle u).impose (.force .on (.run (.left (minutes * 60))))).wroteBy
      .boost).rework cc := fun h => Work.press_of_starting minutes h.1 h.2
  refine ⟨fun h => ?_, fun h => ?_, fun h => ?_, Work.press_of_ignored minutes⟩
  · rw [hends h, Work.rework_override, Work.impose_override]
    exact congrArg (Override.mk .none) h.2
  · rw [hbegins h, Work.rework_override]
    exact congrArg (fun o : Override => ({ o with source := some .boost } : Override)) (Work.impose_override _ _)
  · obtain h | h := h
    · have hkind : Imposed.none.kind ≠ u.override.imposed.kind := by
        obtain ⟨⟨phase, hi⟩, -⟩ := h
        simp [hi, Imposed.kind]
      rw [hends h]
      exact ⟨Work.rework_changed cc (Work.impose_changed hkind), fun hh => Work.rework_handed cc (by simpa using hh)⟩
    · have hkind : (Imposed.force .on (.run (.left (minutes * 60)))).kind ≠ u.override.imposed.kind := by
        simp [h.1, Imposed.kind]
      rw [hbegins h]
      exact ⟨Work.rework_changed cc (Work.impose_changed hkind), fun hh => Work.rework_handed cc (by simpa using hh)⟩

/-! ## The commands -/

section
variable {s : State} {cfg : Configuration} {c : Channel} {i : Instr} {f : ChannelUnit → Work}

/-- A command that acts on one channel: what it makes of the state. -/
def State.actsOn (s : State) (i : Instr) (c : Channel) (f : ChannelUnit → Work) : Prop :=
  s.after i = s.onChannel c f ∧ s.keepsAllBut [.channels, .status] (s.after i)

theorem State.actsOn.unchanged (h : s.actsOn i c f) (hidle : f (s.channels.get c) = Work.idle (s.channels.get c)) :
    exec i s = .next s := by
  rw [exec_eq_next, h.1, State.onChannel_of_idle hidle]

/-- The command's outcome, when its effect at the channel is known. -/
theorem State.actsOn.makes {w : Work} (h : s.actsOn i c f) (hw : f (s.channels.get c) = w) :
    ∃ t, exec i s = .next t ∧
      ((∀ d, d ≠ c → t.channels.get d = s.channels.get d) ∧ s.keepsAllBut [.channels, .status] t) ∧
      t.channels.get c = w.unit ∧
      t.status = { s.status with changePending := s.status.changePending || w.changed } := by
  obtain ⟨hafter, hframe⟩ := h
  refine ⟨_, exec_eq_next i s, ?_⟩
  rw [hafter] at hframe ⊢
  refine ⟨⟨fun d hd => s.onChannel_get_of_ne f hd, hframe⟩, ?_, ?_⟩
  · rw [State.onChannel_get_self, hw]
  · rw [State.onChannel_status, hw]

theorem State.actsOn.quiet {v : ChannelUnit} (h : s.actsOn i c f) (hw : f (s.channels.get c) = Work.idle v) :
    ∃ t, exec i s = .next t ∧
      ((∀ d, d ≠ c → t.channels.get d = s.channels.get d) ∧ s.keepsAllBut [.channels, .status] t) ∧
      t.channels.get c = v ∧ t.status = s.status := by
  obtain ⟨t, ht, honly, hget, hstatus⟩ := h.makes hw
  refine ⟨t, ht, honly, hget, ?_⟩
  rw [hstatus, Work.idle_changed, Bool.or_false]

theorem State.actsOn.changes {w : Work} (h : s.actsOn i c f) (hw : f (s.channels.get c) = w)
    (hc : w.changed = true) : ∃ t, exec i s = .next t ∧
      ((∀ d, d ≠ c → t.channels.get d = s.channels.get d) ∧ s.keepsAllBut [.channels, .status] t) ∧
      t.channels.get c = w.unit ∧ t.status = { s.status with changePending := true } := by
  obtain ⟨t, ht, honly, hget, hstatus⟩ := h.makes hw
  refine ⟨t, ht, honly, hget, ?_⟩
  rw [hstatus, hc, Bool.or_true]

variable (hrun : s.runsWith cfg) (c : Channel)
include hrun

theorem State.dwellEnd_actsOn : s.actsOn (.dwellEnd c) c fun u => (Work.idle u).dwellTick (cfg.channel c) :=
  ⟨by rw [State.after_dwellEnd, State.whenConfigured_eq hrun], s.after_frame (.dwellEnd c)⟩

theorem State.returnCountdownExpiry_actsOn :
    s.actsOn (.returnCountdownExpiry c) c fun u => (Work.idle u).returnTick (cfg.channel c) :=
  ⟨by rw [State.after_returnCountdownExpiry, State.whenConfigured_eq hrun], s.after_frame (.returnCountdownExpiry c)⟩

theorem State.qualifiedAssertion_actsOn :
    s.actsOn (.qualifiedAssertion c) c fun u => (Work.idle u).assertion (cfg.channel c) cfg.boostLength :=
  ⟨by rw [State.after_qualifiedAssertion, State.whenConfigured_eq hrun], s.after_frame (.qualifiedAssertion c)⟩

theorem State.qualifiedRelease_actsOn :
    s.actsOn (.qualifiedRelease c) c fun u => (Work.idle u).qualifiedRelease (cfg.channel c) :=
  ⟨by rw [State.after_qualifiedRelease, State.whenConfigured_eq hrun], s.after_frame (.qualifiedRelease c)⟩

theorem State.firstQualification_actsOn (x : Contact) :
    s.actsOn (.firstQualification c x) c fun u => (Work.idle u).firstQualification (cfg.channel c) x :=
  ⟨by rw [State.after_firstQualification, State.whenConfigured_eq hrun], s.after_frame (.firstQualification c x)⟩

theorem State.localInputSample_actsOn (x : Contact) :
    s.actsOn (.localInputSample c x) c fun u => (Work.idle u).sample (cfg.channel c) x :=
  ⟨by rw [State.after_localInputSample, State.whenConfigured_eq hrun], s.after_frame (.localInputSample c x)⟩

end

/-- Settles O49. -/
theorem dwellsAndLocalInputs : Obligations.DwellsAndLocalInputs := by
  intro s cfg c hrun cc u onlyHere quiet taken sampled qualified read
  have hread : cc.samples = true ↔ read := ChannelConfig.samples_iff
  have hqualified : ∀ x q, x = .asserted ∧ q = .asserted ∨ x = .released ∧ q = .released → q = qualificationOf x := by
    rintro x q (⟨rfl, rfl⟩ | ⟨rfl, rfl⟩) <;> rfl
  refine ⟨fun hnot => ?_, fun hstill => ?_, fun hge hset => ?_, fun hone hset hnone => ?_, fun l hone hset hd hfree => ?_,
    fun x q hr hx => ⟨fun hun => ?_, fun hfive hunknown => ?_⟩, fun hr hfive hq => ⟨fun hcase => ?_, fun l hhold hd hzero => ?_⟩,
    fun hr hfive hq => ⟨fun hhold => ?_, fun hboost => ?_⟩⟩
  · have hidle : ∀ x, _ := fun x => Work.input_of_unsampled (u := u) (x := x)
      (Bool.eq_false_iff.2 fun h => hnot (hread.1 h)) cfg.boostLength
    exact ⟨(State.qualifiedAssertion_actsOn hrun c).unchanged (hidle .asserted).1,
      (State.qualifiedRelease_actsOn hrun c).unchanged (hidle .asserted).2.1, fun x =>
      ⟨(State.localInputSample_actsOn hrun c x).unchanged (hidle x).2.2.1,
        (State.firstQualification_actsOn hrun c x).unchanged (hidle x).2.2.2⟩⟩
  · exact (State.dwellEnd_actsOn hrun c).unchanged (Work.dwellTick_of_still hstill)
  · exact (State.dwellEnd_actsOn hrun c).quiet (Work.dwellTick_of_running hge hset)
  · refine (State.dwellEnd_actsOn hrun c).quiet ((Work.dwellTick_of_ending hone hset).trans ?_)
    obtain hnone | hheld := hnone
    · exact Work.takeDeferred_none cc hnone
    · exact Work.takeDeferred_of_held hheld
  · exact (State.dwellEnd_actsOn hrun c).changes ((Work.dwellTick_of_ending hone hset).trans
      (Work.takeDeferred_of_free hd hfree)) rfl
  · obtain rfl := hqualified x q hx
    exact (State.localInputSample_actsOn hrun c x).quiet (Work.sample_of_unqualified (hread.2 hr) hun)
  · obtain rfl := hqualified x q hx
    exact (State.firstQualification_actsOn hrun c x).quiet (Work.firstQualification_of_qualified (hread.2 hr) hfive hunknown)
  · refine (State.qualifiedRelease_actsOn hrun c).quiet
      ((Work.qualifiedRelease_of_qualified (hread.2 hr) hfive hq).trans ?_)
    split_ifs with h
    · rw [ChannelConfig.inputUse_of_used hr.1] at h
      obtain hboost | hnone | hpos := hcase
      · exact absurd (h.1.symm.trans hboost) (by decide)
      · exact Work.takeDeferred_none cc hnone
      · exact absurd h.2 hpos.ne'
    · rfl
  · refine (State.qualifiedRelease_actsOn hrun c).changes (w := (Work.idle (u.qualified .released)).drive cc l)
      ((Work.qualifiedRelease_of_qualified (hread.2 hr) hfive hq).trans ?_) rfl
    rw [if_pos ⟨(ChannelConfig.inputUse_of_used hr.1).trans hhold, hzero⟩]
    refine Work.takeDeferred_of_free hd (Bool.eq_false_iff.2 fun h => ?_)
    have := ((ChannelUnit.holdsOutput_iff cc (u.qualified .released)).1 h).2.2
    simp [ChannelUnit.qualified, qualificationOf] at this
  · refine (State.qualifiedAssertion_actsOn hrun c).quiet
      ((Work.assertion_of_qualified cfg.boostLength (hread.2 hr) hfive hq).trans (if_neg ?_))
    rw [ChannelConfig.inputUse_of_used hr.1]
    exact fun h => absurd (hhold.symm.trans h) (by decide)
  · have hpress : (Work.idle u).assertion cc cfg.boostLength =
        (Work.idle (u.qualified .asserted)).press cc cfg.boostLength :=
      (Work.assertion_of_qualified cfg.boostLength (hread.2 hr) hfive hq).trans
        (if_pos ((ChannelConfig.inputUse_of_used hr.1).trans hboost))
    obtain ⟨t, ht, honly, hget, hstatus⟩ := (State.qualifiedAssertion_actsOn hrun c).makes hpress
    refine ⟨t, ht, honly, ?_⟩
    rw [hget, hstatus]
    obtain ⟨hends, hstarts, hchanges, hignored⟩ := Work.press_spec cc cfg.boostLength (u.qualified .asserted)
    refine ⟨Work.press_input .., Work.press_state .., hends, hstarts, fun h => ?_, fun hb hst => ?_⟩
    · obtain ⟨hchanged, hhanded⟩ := hchanges h
      rw [hchanged, Bool.or_true]
      exact ⟨rfl, hhanded⟩
    · rw [hignored hb hst]
      exact ⟨rfl, by rw [Work.idle_changed, Bool.or_false]⟩

end Sys2Proof.Machine
end

section
/-! PROOF. The Fallback Monitor's countdowns, the mains frequency, the Status Port's seconds, and the part that rests
UNCONFIGURED. -/

namespace Sys2Proof.Machine

/-! ## A changed condition (R154) -/

/-- What a change of a station condition does at the monitor, the Status Port and every channel. -/
theorem State.setCondition_changes {cfg : Configuration} {s : State} {k : Condition} {x : Bool}
    (h : s.monitor.conditions.get k ≠ x) :
    (s.setCondition cfg k x).monitor = { s.monitor with conditions := s.monitor.conditions.set k x } ∧
    (s.setCondition cfg k x).status = { s.status with changePending := true } ∧
    (∀ c, (s.setCondition cfg k x).channels.get c = ((Work.idle (s.channels.get c)).stationCondition (cfg.channel c)
      cfg.stagger (s.monitor.conditions.set k x) k).unit) ∧
    s.keepsAllBut [.channels, .monitor, .status] (s.setCondition cfg k x) :=
  ⟨s.setCondition_monitor cfg k x, (State.setCondition_status cfg s k x).trans (if_neg h),
    fun c => (s.setCondition_get cfg k x c).trans (if_neg h), (s.setCondition_frame cfg k x).mono (by decide)⟩

/-! ## The countdowns at an elapsed second (R150, R151, R160) -/

section
variable {s : State} {cfg : Configuration}

theorem State.after_silenceExpiry_of_some (hrun : s.runsWith cfg) {n : Nat} (h : s.monitor.silence = some n) :
    s.after .silenceExpiry = if n = 0 then s
      else if n = 1 then (s.setMonitor { s.monitor with silence := some 0 }).setCondition cfg .silence true
      else s.setMonitor { s.monitor with silence := some (n - 1) } := by
  rw [State.after_silenceExpiry, State.whenConfigured_eq hrun, State.silenceTick, h]

theorem State.after_silenceExpiry_of_none (hrun : s.runsWith cfg) (h : s.monitor.silence = none) :
    s.after .silenceExpiry = s := by
  rw [State.after_silenceExpiry, State.whenConfigured_eq hrun, State.silenceTick, h]

theorem State.after_stepHoldExpiry_of_set (hrun : s.runsWith cfg)
    (h : s.monitor.stepHold = 0 ∨ s.monitor.stepHoldSet = true) : s.after .stepHoldExpiry = s := by
  rw [State.after_stepHoldExpiry, State.whenConfigured_eq hrun, State.stepHoldTick,
    if_pos ((Bool.or_eq_true ..).mpr (h.imp_left decide_eq_true))]

theorem State.after_stepHoldExpiry_of_running (hrun : s.runsWith cfg) (hpos : 0 < s.monitor.stepHold)
    (hset : s.monitor.stepHoldSet = false) : s.after .stepHoldExpiry =
      if s.monitor.stepHold = 1 then (s.setMonitor { s.monitor with stepHold := 0 }).setCondition cfg .timeStep false
      else s.setMonitor { s.monitor with stepHold := s.monitor.stepHold - 1 } := by
  rw [State.after_stepHoldExpiry, State.whenConfigured_eq hrun, State.stepHoldTick, if_neg]
  rw [Bool.or_eq_true, decide_eq_true_eq, hset]
  simp [hpos.ne']

end

theorem Work.returnTick_of_still {cc : ChannelConfig} {u : ChannelUnit}
    (h : (∀ n, u.state ≠ .returnWait n) ∨ u.returnSet = true) : (Work.idle u).returnTick cc = Work.idle u := by
  unfold Work.returnTick
  split
  next n hn => exact if_pos (h.resolve_left fun hnot => hnot n hn)
  · rfl

theorem Work.returnTick_of_waiting {cc : ChannelConfig} {u : ChannelUnit} {n : Nat} (h : u.state = .returnWait n)
    (hset : u.returnSet = false) : (Work.idle u).returnTick cc =
      if n ≤ 1 then (Work.idle u).enterNormal cc else Work.idle { u with state := .returnWait (n - 1) } := by
  simp only [Work.returnTick, Work.idle_unit, h, hset, Bool.false_eq_true, if_false]
  rfl

/-- Settles O46. -/
theorem fallbackCountdownsRunDown : Obligations.FallbackCountdownsRunDown := by
  intro s cfg hrun changes
  refine ⟨fun n hn hge => ?_, fun hone hclear => ?_, fun hstill => ?_, fun hge hset => ?_, fun hone hset hactive => ?_,
    fun hstill => ?_, fun c => ?_⟩
  · rw [exec_eq_next, State.after_silenceExpiry_of_some hrun hn, if_neg (by omega), if_neg (by omega)]
  · refine ⟨_, exec_eq_next _ s, ?_⟩
    rw [State.after_silenceExpiry_of_some hrun hone, if_neg one_ne_zero, if_pos rfl]
    have hne : (s.setMonitor { s.monitor with silence := some 0 }).monitor.conditions.get .silence ≠ true := by
      change s.monitor.conditions.silence ≠ true
      simp [hclear]
    obtain ⟨hmonitor, hstatus, hget, hframe⟩ := State.setCondition_changes (cfg := cfg) hne
    exact ⟨hmonitor, hstatus, hget, ((s.setMonitor_frame _).mono (by decide)).trans hframe⟩
  · obtain hnone | hzero := hstill
    · rw [exec_eq_next, State.after_silenceExpiry_of_none hrun hnone]
    · rw [exec_eq_next, State.after_silenceExpiry_of_some hrun hzero, if_pos rfl]
  · rw [exec_eq_next, State.after_stepHoldExpiry_of_running hrun (by omega) hset, if_neg (by omega)]
  · refine ⟨_, exec_eq_next _ s, ?_⟩
    rw [State.after_stepHoldExpiry_of_running hrun (by omega) hset, if_pos hone]
    have hne : (s.setMonitor { s.monitor with stepHold := 0 }).monitor.conditions.get .timeStep ≠ false := by
      change s.monitor.conditions.timeStep ≠ false
      simp [hactive]
    obtain ⟨hmonitor, hstatus, hget, hframe⟩ := State.setCondition_changes (cfg := cfg) hne
    exact ⟨hmonitor, hstatus, hget, ((s.setMonitor_frame _).mono (by decide)).trans hframe⟩
  · rw [exec_eq_next, State.after_stepHoldExpiry_of_set hrun hstill]
  · intro u
    refine ⟨fun n hn hset => ?_, fun hstill => (State.returnCountdownExpiry_actsOn hrun c).unchanged
      (Work.returnTick_of_still hstill)⟩
    obtain ⟨t, ht, ⟨honly, hframe⟩, hget, hstatus⟩ := (State.returnCountdownExpiry_actsOn hrun c).makes
      (Work.returnTick_of_waiting hn hset)
    refine ⟨t, ht, honly, hframe, fun hge => ?_, fun hle => ?_⟩
    · rw [if_neg (by omega)] at hget hstatus
      exact ⟨hget, by rw [hstatus, Work.idle_changed, Bool.or_false]⟩
    · rw [if_pos hle] at hget hstatus
      rw [hget, hstatus, Work.enterNormal_changed]
      exact ⟨Work.enterNormal_state .., Work.enterNormal_override .., Bool.or_true _,
        Work.enterNormal_handed (w := Work.idle u) _⟩

/-! ## The mains frequency (R152, R153) -/

theorem Mains.follow_eq (m : Mains) (cls : MainsClass) (now : Nat) : m.follow cls now =
    { m with cls := cls, changedAt := if m.cls = cls then m.changedAt else now } := by
  unfold Mains.follow
  split_ifs with h
  · rw [← h]
  · rfl

/-- The bounds of the band as a cycle's length in crystal periods (R152). -/
theorem cycleClass_eq (n : Nat) (hn : 0 < n) : cycleClass n =
    if (47.5 : Rat) ≤ 8192000 / (n : Rat) ∧ 8192000 / (n : Rat) ≤ 52.5 then .inside else .outside := by
  have hpos : (0 : Rat) < n := by exact_mod_cast hn
  have hlow : (47.5 : Rat) ≤ 8192000 / (n : Rat) ↔ 95 * n ≤ 16384000 := by
    rw [le_div_iff₀ hpos]
    constructor
    · intro h
      have : (95 : Rat) * n ≤ 16384000 := by linarith
      exact_mod_cast this
    · intro h
      have : ((95 * n : Nat) : Rat) ≤ 16384000 := by exact_mod_cast h
      push_cast at this
      linarith
  have hhigh : 8192000 / (n : Rat) ≤ (52.5 : Rat) ↔ 16384000 ≤ 105 * n := by
    rw [div_le_iff₀ hpos]
    constructor
    · intro h
      have : (16384000 : Rat) ≤ 105 * n := by linarith
      exact_mod_cast this
    · intro h
      have : (16384000 : Rat) ≤ ((105 * n : Nat) : Rat) := by exact_mod_cast h
      push_cast at this
      linarith
  simp only [cycleClass, hlow, hhigh]

theorem Mains.noCrossing_eq (m : Mains) (now : Nat) : m.noCrossing now =
    ⟨.outside, if m.cls = .outside then m.changedAt else now, m.lastCrossing, m.spans + 1⟩ := by
  rw [Mains.noCrossing, Mains.follow_eq]

/-- A crossing closes a cycle, or opens one after a span without a crossing (R152). -/
theorem Mains.crossing_spec (m : Mains) {now phase : Nat} (hlater : m.lastCrossing < now * 81920 + phase) :
    let t := m.crossing now phase
    let hertz : Rat := 8192000 / ((now * 81920 + phase - m.lastCrossing : Nat) : Rat)
    let cls : MainsClass := if 47.5 ≤ hertz ∧ hertz ≤ 52.5 then .inside else .outside
    t.lastCrossing = now * 81920 + phase ∧ t.spans = 0 ∧
    (m.spans = 0 → (t.cls, t.changedAt) = (cls, if m.cls = cls then m.changedAt else now)) ∧
    (m.spans ≠ 0 → (t.cls, t.changedAt) = (m.cls, m.changedAt)) := by
  intro t hertz cls
  have hcls : cycleClass (now * 81920 + phase - m.lastCrossing) = cls := cycleClass_eq _ (Nat.sub_pos_of_lt hlater)
  have ht : t = if m.spans = 0 then
      { m.follow (cycleClass (now * 81920 + phase - m.lastCrossing)) now with lastCrossing := now * 81920 + phase }
      else { m with lastCrossing := now * 81920 + phase, spans := 0 } := rfl
  by_cases h : m.spans = 0
  · rw [ht, if_pos h, hcls, Mains.follow_eq]
    exact ⟨rfl, h, fun _ => rfl, fun hne => absurd h hne⟩
  · rw [ht, if_neg h]
    exact ⟨rfl, rfl, fun h0 => absurd h0 h, fun _ => rfl⟩

/-- A raise or a clear of MAINS_FREQ, when it may come (R153). -/
theorem State.setMainsFreq_spec {s : State} {cfg : Configuration} (x : Bool) {t : State}
    (ht : t = s.setCondition cfg .mainsFreq x) :
    t.monitor = { s.monitor with conditions := { s.monitor.conditions with mainsFreq := x } } ∧
    s.keepsAllBut [.channels, .monitor, .status] t ∧ (s.monitor.conditions.mainsFreq = x → t = s) ∧
    (s.monitor.conditions.mainsFreq ≠ x → t.status = { s.status with changePending := true } ∧
      ∀ c, t.channels.get c = ((Work.idle (s.channels.get c)).stationCondition (cfg.channel c) cfg.stagger
        t.monitor.conditions .mainsFreq).unit) := by
  subst ht
  have hmonitor := s.setCondition_monitor cfg .mainsFreq x
  refine ⟨hmonitor, (s.setCondition_frame cfg _ _).mono (by decide), fun h => State.setCondition_eq_self cfg s h, fun h => ?_⟩
  obtain ⟨-, hstatus, hget, -⟩ := State.setCondition_changes (cfg := cfg) (k := .mainsFreq) h
  rw [hmonitor]
  exact ⟨hstatus, hget⟩

/-- Settles O47. -/
theorem mainsFrequencyIsQualified : Obligations.MainsFrequencyIsQualified := by
  intro s cfg hrun m classed
  refine ⟨fun phase hphase hlater => ?_, fun hspan => ?_, fun hearly => ?_, fun cmd cls ticks x hcmd => ?_⟩
  · intro at_ hertz
    have hafter : s.after (.mainsCrossing phase) =
        s.setMonitor { s.monitor with mains := m.crossing s.elapsed phase } := by
      rw [State.after_mainsCrossing, State.whenConfigured_eq hrun]
      exact if_pos hlater
    refine ⟨_, exec_eq_next _ s, s.after_frame (.mainsCrossing phase), ?_⟩
    rw [hafter]
    obtain ⟨hlast, hspans, hclosed, hopened⟩ := m.crossing_spec (now := s.elapsed) (phase := phase) hlater
    exact ⟨rfl, hlast, hspans, hclosed, hopened⟩
  · refine ⟨_, exec_eq_next _ s, s.after_frame .mainsNoCrossing, ?_⟩
    have hafter : s.after .mainsNoCrossing = s.setMonitor { s.monitor with mains := m.noCrossing s.elapsed } := by
      rw [State.after_mainsNoCrossing, State.whenConfigured_eq hrun]
      exact if_pos hspan
    rw [hafter]
    exact congrArg (fun x => { s.monitor with mains := x }) (Mains.noCrossing_eq m s.elapsed)
  · rw [exec_eq_next, State.after_mainsNoCrossing, State.whenConfigured_eq hrun]
    exact congrArg _ (if_neg (Nat.not_le.2 hearly))
  · have hafter : exec cmd s = .next (if m.cls = cls ∧ m.changedAt + ticks ≤ s.elapsed then
        s.setCondition cfg .mainsFreq x else s) := by
      obtain ⟨rfl, rfl, rfl, rfl⟩ | ⟨rfl, rfl, rfl, rfl⟩ := hcmd
      · rw [exec_eq_next, State.after_mainsFreqRaise, State.whenConfigured_eq hrun]
        simp only [Mains.raises_iff]
        rfl
      · rw [exec_eq_next, State.after_mainsFreqClear, State.whenConfigured_eq hrun]
        simp only [Mains.clears_iff]
        rfl
    refine ⟨fun hcls hlong => ?_, fun hnot => ?_⟩
    · rw [hafter, if_pos ⟨hcls, hlong⟩]
      exact ⟨_, rfl, State.setMainsFreq_spec x rfl⟩
    · rw [hafter, if_neg]
      rintro ⟨hcls, hlong⟩
      obtain h | h := hnot
      · exact h hcls
      · omega

/-! ## The status record's seconds (R199) -/

theorem StatusPort.due_iff (p : StatusPort) : p.due = true ↔ p.changePending = true ∨ p.periodic ≤ 1 := by
  simp [StatusPort.due, StatusPort.countdown, Nat.sub_eq_zero_iff_le]

/-- Settles O50. -/
theorem recordsAreEmittedWhenDue : Obligations.RecordsAreEmittedWhenDue := by
  intro s hrun
  refine ⟨fun hl => ?_, fun hl => ?_, fun e he => ?_⟩
  · rw [exec_eq_next, State.after_statusSecondEnd, State.whenRunning_eq hrun, if_pos hl]
  · intro due
    rw [exec_eq_next, State.after_statusSecondEnd, State.whenRunning_eq hrun, if_neg hl, State.statusSecond]
    refine ⟨fun hdue hidle => ?_, fun hnot => ?_⟩
    · exact congrArg _ (if_pos (by simp [(StatusPort.due_iff _).2 hdue, hidle]))
    · refine congrArg _ (if_neg ?_)
      rw [Bool.and_eq_true, StatusPort.due_iff, Option.isNone_iff_eq_none]
      rintro ⟨hdue, hidle⟩
      obtain h | h := hnot
      · exact h hdue
      · exact h hidle
  · rw [exec_eq_next, State.after_emissionEnd, State.whenRunning_eq hrun, State.endEmission, he]
    refine ⟨fun hlate => congrArg _ (if_pos ((e.over_iff _).2 hlate)), fun hearly => congrArg _ (if_neg fun h => ?_)⟩
    have := (e.over_iff _).1 h
    omega

/-! ## UNCONFIGURED (R192) -/

/-- What a command may change while the part runs UNCONFIGURED (R192). -/
def State.rests (i : Instr) (s t : State) : Prop :=
  s.keepsAllBut [.time, .status, .line] t ∧
  t.line = { s.line with
    noise := t.line.noise, cleanFrom := t.line.cleanFrom, carrierAt := t.line.carrierAt } ∧
  ((∀ level, i ≠ .cleanTick level) → t.line.noise = s.line.noise) ∧
  ((∀ level, i ≠ .cleanTick level) → i ≠ .carrierAppears → t.line = s.line) ∧
  t.time.state = s.time.state ∧ t.time.hold = s.time.hold ∧
  t.time.lost = s.time.lost ∧ (i ≠ .clockAdvance → t.time = s.time) ∧
  (t.status.changePending = true → s.status.changePending = true)

section
variable {s : State} {i : Instr}

theorem State.rests_refl (i : Instr) (s : State) : s.rests i s :=
  ⟨.refl _ s, rfl, fun _ => rfl, fun _ _ => rfl, rfl, rfl, rfl, fun _ => rfl, id⟩

theorem State.rests_setTime {x : Timekeeper} (hs : x.state = s.time.state) (hh : x.hold = s.time.hold)
    (hl : x.lost = s.time.lost) : s.rests .clockAdvance (s.setTime x) :=
  ⟨(s.setTime_frame x).mono (by decide), rfl, fun _ => rfl, fun _ _ => rfl, hs, hh, hl, fun h => absurd rfl h, id⟩

theorem State.rests_setStatus {x : StatusPort} (h : x.changePending = true → s.status.changePending = true) :
    s.rests i (s.setStatus x) :=
  ⟨(s.setStatus_frame x).mono (by decide), rfl, fun _ => rfl, fun _ _ => rfl, rfl, rfl, rfl, fun _ => rfl, h⟩

theorem State.statusSecond_rests (s : State) : s.rests i s.statusSecond := by
  unfold State.statusSecond
  split_ifs
  · exact State.rests_setStatus fun h => Bool.noConfusion h
  · exact State.rests_setStatus id

theorem State.endEmission_rests (s : State) : s.rests i s.endEmission := by
  unfold State.endEmission
  split
  · split_ifs
    exacts [State.rests_setStatus id, State.rests_refl _ s]
  · exact State.rests_refl _ s

theorem State.hearCarrier_rests (hl : s.loader.load = .unconfigured) : s.rests .carrierAppears s.hearCarrier := by
  rw [State.hearCarrier, hl]
  exact ⟨(s.setLine_frame _).mono (by decide), rfl, fun _ => rfl, fun _ h => absurd rfl h, rfl, rfl, rfl,
    fun _ => rfl, id⟩

theorem State.cleanTick_rests (hl : s.loader.load = .unconfigured) (level : Rat) :
    s.rests (.cleanTick level) (s.cleanTick level) := by
  have htick : s.cleanTick level = if s.tickWasClean level then s.moveNoise level else s := by
    rw [State.cleanTick, hl]
  rw [htick]
  split_ifs
  · exact ⟨(s.moveNoise_frame level).mono (by decide), by rw [State.moveNoise_line], fun h => absurd rfl (h level),
      fun h => absurd rfl (h level), rfl, rfl, rfl, fun _ => rfl, id⟩
  · exact State.rests_refl _ s

end

/-- Settles O60: what a CONFIGURED part's blocks do does not occur, and what remains acts on the clock, the line's
noise and the Status Port alone. -/
theorem unconfiguredPartRests : Obligations.UnconfiguredPartRests := by
  intro i s t hrun hl hi hexec
  obtain rfl := exec_eq_next_iff.1 hexec
  change s.rests i (s.after i)
  have hnot : ∀ cfg, s.loader.load ≠ .configured cfg := by simp [hl]
  have hstill : ∀ f, s.whenConfigured f = s := fun f => State.whenConfigured_of_not (fun cfg h => hnot cfg h.2) f
  cases i <;> simp at hi
  case retainedClockTick =>
    rw [State.after_retainedClockTick, if_neg (by simp [State.bridged, State.running] at hrun ⊢; simp [hrun])]
    exact State.rests_refl _ s
  case readAttemptEnd a noise v =>
    rw [State.after_readAttemptEnd, State.whenRunning_eq hrun, if_neg (by simp [Loader.reading, hl])]
    exact State.rests_refl _ s
  case readRetry =>
    rw [State.after_readRetry, State.whenRunning_eq hrun, State.retry, hl]
    exact State.rests_refl _ s
  case carrierAppears =>
    rw [State.after_carrierAppears, State.whenRunning_eq hrun]
    exact State.hearCarrier_rests hl
  case cleanTick level =>
    rw [State.after_cleanTick, State.whenRunning_eq hrun]
    exact State.cleanTick_rests hl level
  case clockAdvance =>
    rw [State.after_clockAdvance, State.whenRunning_eq hrun, State.advanceClock_of_not_configured hnot]
    exact State.rests_setTime (Timekeeper.tick_state ..) (Timekeeper.tick_hold ..) (Timekeeper.tick_lost ..)
  case holdCountdownExpiry =>
    rw [State.after_holdCountdownExpiry, State.whenRunning_eq hrun, State.timeCountdown, hl]
    exact State.rests_refl _ s
  case lostCountdownExpiry =>
    rw [State.after_lostCountdownExpiry, State.whenRunning_eq hrun, State.timeCountdown, hl]
    exact State.rests_refl _ s
  case statusSecondEnd =>
    rw [State.after_statusSecondEnd, State.whenRunning_eq hrun, if_neg (by simp [hl])]
    exact s.statusSecond_rests
  case emissionEnd =>
    rw [State.after_emissionEnd, State.whenRunning_eq hrun]
    exact s.endEmission_rests
  all_goals simpa [hstill] using State.rests_refl _ s

end Sys2Proof.Machine
end

section
/-! PROOF. How a telegram, its payloads and the orders are read (sections 12.1 to 12.4). -/

namespace Sys2Proof.Machine

/-! ## Fields -/

section
variable (b : Byte) (bytes : List Byte)

theorem flagOf_eq (bit : Nat) : flagOf b bit = decide (b.toNat / 2 ^ bit % 2 = 1) :=
  Bool.eq_iff_iff.2 (flagOf_iff.trans decide_eq_true_iff.symm)

theorem flagOf_zero : flagOf b 0 = decide (b.toNat % 2 = 1) := by
  rw [flagOf_eq, pow_zero, Nat.div_one]

theorem levelOf_zero : levelOf b 0 = if b.toNat % 2 = 1 then .on else .off := by
  rw [levelOf, flagOf_zero]
  simp only [decide_eq_true_eq]

theorem wordAt_drop (n i : Nat) : wordAt (bytes.drop n) i = wordAt bytes (n + i) := by
  rw [wordAt, byteAt_drop, byteAt_drop, wordAt, Nat.add_assoc]

theorem clamp_zero (high n : Nat) : clamp 0 high n = if n < 0 then 0 else if high < n then high else n :=
  clamp_eq (Nat.zero_le _) n

theorem wordAt_toInt (i : Nat) : (wordAt bytes i).toInt =
    if 256 * (byteAt bytes i).toNat + (byteAt bytes (i + 1)).toNat < 32768 then
      ((256 * (byteAt bytes i).toNat + (byteAt bytes (i + 1)).toNat : Nat) : Int)
    else ((256 * (byteAt bytes i).toNat + (byteAt bytes (i + 1)).toNat : Nat) : Int) - 65536 := by
  rw [BitVec.toInt_eq_toNat_cond, wordAt_toNat]
  split_ifs <;> first | rfl | omega

theorem windowMinute_eq (i : Nat) : windowMinute bytes i =
    clamp 0 1439 ((256 * (byteAt bytes i).toNat + (byteAt bytes (i + 1)).toNat) % 2048) := by
  rw [windowMinute, BitVec.extractLsb'_toNat, wordAt_toNat, Nat.shiftRight_zero]

theorem clampInt_eq {low high : Int} (h : low ≤ high) (n : Int) :
    clampInt low high n = if n < low then low else if high < n then high else n := by
  unfold clampInt
  split_ifs <;> omega

theorem dayClassOf_eq : dayClassOf b = if b.toNat = 0 then .workday else if b.toNat = 1 then .saturday
    else if b.toNat = 2 then .sundayHoliday else .special := by
  have heq : ∀ n : Nat, n < 256 → (b = BitVec.ofNat 8 n ↔ b.toNat = n) := fun n hn => by
    rw [← BitVec.toNat_inj, BitVec.toNat_ofNat, Nat.mod_eq_of_lt hn]
  unfold dayClassOf
  simp only [← heq 0 (by decide), ← heq 1 (by decide), ← heq 2 (by decide)]
  rfl

end

/-! ## The orders by their codes (section 12.4) -/

section
variable {payload : List Byte}

theorem orderOf_switch (h : byteAt payload 0 = 1) : orderOf payload = .record (.switch (levelOf (byteAt payload 2) 0)
    (clamp 0 1080 (nat16At payload 3)) (byteAt payload 5).toNat (clamp 0 1080 (nat16At payload 6))) := by
  simp [orderOf, h, nat16At, wordAt_drop]

theorem orderOf_cycle (h : byteAt payload 0 = 2) : orderOf payload = .record (.cycle
    (clamp 10 3600 (nat16At payload 2)) (clamp 10 3600 (nat16At payload 4)) (clamp 0 1080 (nat16At payload 6))
    (flagOf (byteAt payload 8) 0) (flagOf (byteAt payload 8) 1)) := by
  simp [orderOf, h, nat16At, wordAt_drop]

theorem orderOf_adjust (h : byteAt payload 0 = 3) :
    orderOf payload = .record (.adjust (clampInt (-1080) 1080 (wordAt payload 2).toInt)) := by
  simp [orderOf, h, wordAt_drop]

theorem orderOf_cancel (h : byteAt payload 0 = 4) : orderOf payload = .record (.cancel (flagOf (byteAt payload 2) 0)) := by
  simp [orderOf, h]

theorem orderOf_setWindow (h : byteAt payload 0 = 5) : orderOf payload = .setWindow (byteAt payload 2).toNat
    ⟨wordAt payload 3, windowMinute (payload.drop 2) 3⟩ ⟨wordAt payload 7, windowMinute (payload.drop 2) 7⟩
    (bitsOf (byteAt payload 11) 0 4) (if flagOf (byteAt payload 11) 7 then .replace else .overlay) := by
  simp [orderOf, h, wordAt_drop]

theorem orderOf_clearWindow (h : byteAt payload 0 = 6) : orderOf payload = .clearWindow (byteAt payload 2).toNat := by
  simp [orderOf, h]

theorem orderOf_forceSafe (h : byteAt payload 0 = 7) : orderOf payload = .forceSafe (flagOf (byteAt payload 2) 0) := by
  simp [orderOf, h]

theorem orderOf_release (h : byteAt payload 0 = 8) : orderOf payload = .release := by
  simp [orderOf, h]

theorem orderOf_unknown (h : byteAt payload 0 = 0 ∨ 9 ≤ (byteAt payload 0).toNat) : orderOf payload = .unknown := by
  have hne : ∀ b ∈ ([1, 2, 3, 4, 5, 6, 7, 8] : List Byte), byteAt payload 0 ≠ b := fun b hb heq => by
    have hrange : ∀ b ∈ ([1, 2, 3, 4, 5, 6, 7, 8] : List Byte), b ≠ 0 ∧ b.toNat ≤ 8 := by decide
    obtain ⟨hzero, hle⟩ := hrange b hb
    rw [heq] at h
    exact h.elim hzero (Nat.not_le.2 (Nat.lt_succ_of_le hle))
  unfold orderOf
  rw [if_neg (hne 1 (by decide)), if_neg (hne 2 (by decide)), if_neg (hne 3 (by decide)), if_neg (hne 4 (by decide)),
    if_neg (hne 5 (by decide)), if_neg (hne 6 (by decide)), if_neg (hne 7 (by decide)), if_neg (hne 8 (by decide))]

end

theorem byteAt_payloadOf {copy : List Byte} {i : Nat} (h : i < 22) : byteAt (payloadOf copy) i = byteAt copy (8 + i) := by
  rw [payloadOf, byteAt_take h, byteAt_drop]

theorem byteAt_segmentData {payload : List Byte} {i : Nat} (h : i < 18) :
    byteAt (segmentData payload) i = byteAt payload (3 + i) := by
  rw [segmentData, byteAt_take h, byteAt_drop]

theorem checkPasses_iff (copy : List Byte) : checkPasses copy = true ↔
    (crc16 (copy.take 30)).toNat = 256 * (byteAt copy 30).toNat + (byteAt copy 31).toNat := by
  rw [checkPasses, decide_eq_true_eq, ← BitVec.toNat_inj, wordAt_toNat]

/-- Settles O38, each field by the lemma about its form. -/
theorem ordersAreReadAndClamped : Obligations.OrdersAreReadAndClamped := by
  refine ⟨fun copy => ?_, fun cfg target => ?_, fun payload => ?_⟩
  · intro b
    exact ⟨bitsOf_high_half _, rfl, wordAt_toNat _ _, bitsOf_high_half _, bitsOf_low_half _, nat16At_eq _ _, rfl,
      fun hlen => ⟨by simp [payloadOf, hlen], fun i hi => byteAt_payloadOf hi, checkPasses_iff copy⟩⟩
  · simp [addresses]
  · intro at_ classOf beacon
    have hclass : ∀ i, dayClassOf (byteAt payload i) = classOf (at_ i) := fun i => dayClassOf_eq _
    refine ⟨wordAt_toNat _ _, nat24At_eq _ _, hclass 5, hclass 6, wordAt_toNat _ _, rfl,
      fun hlen => ⟨by simp [segmentData, hlen], fun i hi => byteAt_segmentData hi⟩, ?_⟩
    intro b n within
    have hnumber : ∀ i, nat16At payload (2 + i) = n i := fun i => nat16At_eq _ _
    have hwithin : ∀ high x, clamp 0 high x = within 0 high x := clamp_zero
    have hportion : ∀ x, clamp 10 3600 x = within 10 3600 x := clamp_eq (by decide)
    have hminute : ∀ i, windowMinute (payload.drop 2) i = within 0 1439 (n i % 2048) := fun i => by
      rw [windowMinute_eq, hwithin, byteAt_drop, byteAt_drop]
    refine ⟨fun h => ?_, fun h => ?_, fun h => ?_, fun h => ?_, fun h => ?_, orderOf_clearWindow, fun h => ?_,
      orderOf_release, orderOf_unknown, fun c => flagOf_iff⟩
    · rw [orderOf_switch h, levelOf_zero, hwithin, hwithin, hnumber 1, hnumber 4]
    · rw [orderOf_cycle h, hportion, hportion, hwithin, hnumber 0, hnumber 2, hnumber 4, flagOf_zero, flagOf_eq, pow_one]
    · rw [orderOf_adjust h, wordAt_toInt, clampInt_eq (by decide)]
    · rw [orderOf_cancel h, flagOf_zero]
    · rw [orderOf_setWindow h, hminute, hminute, bitsOf_low_half]
      have htop : flagOf (byteAt payload 11) 7 = true ↔ b 9 / 128 = 1 := by
        rw [flagOf_iff]
        have : b 9 < 256 := BitVec.isLt _
        change b 9 / 2 ^ 7 % 2 = 1 ↔ _
        omega
      simp only [htop]
      rfl
    · rw [orderOf_forceSafe h, flagOf_zero]

end Sys2Proof.Machine
end

section
/-! PROOF. The status record's bytes and its bits on the line (sections 11.4 and 12.8). -/

namespace Sys2Proof.Machine

/-! ## Bytes at their places -/

theorem byteAt_append_right {pre post : List Byte} {i : Nat} : byteAt (pre ++ post) (pre.length + i) = byteAt post i := by
  simp [byteAt, List.getD_eq_getElem?_getD, List.getElem?_append_right]

theorem byteAt_append_left {pre post : List Byte} {i : Nat} (h : i < pre.length) :
    byteAt (pre ++ post) i = byteAt pre i := by
  simp [byteAt, List.getD_eq_getElem?_getD, List.getElem?_append_left h]

theorem length_bytesOf (w : Word) : (bytesOf w).length = 2 := by
  obtain ⟨hi, lo, h, -⟩ := bytesOf_spec w
  rw [h]
  rfl

/-- A word is read back from where its two bytes stand. -/
theorem wordAt_bytesOf (pre : List Byte) (w : Word) (post : List Byte) :
    wordAt (pre ++ (bytesOf w ++ post)) pre.length = w := by
  obtain ⟨hi, lo, h, hw⟩ := bytesOf_spec w
  have hfirst := byteAt_append_right (pre := pre) (post := bytesOf w ++ post) (i := 0)
  have hsecond := byteAt_append_right (pre := pre) (post := bytesOf w ++ post) (i := 1)
  rw [h] at hfirst hsecond ⊢
  rw [wordAt, ← Nat.add_zero pre.length, hfirst, Nat.add_zero, hsecond, ← hw]
  rfl

theorem length_flatMap_twoBytes (xs : List Nat) : (xs.flatMap twoBytes).length = 2 * xs.length := by
  induction xs with
  | nil => rfl
  | cons x xs ih =>
    rw [List.flatMap_cons, List.length_append, ih, twoBytes, length_bytesOf, List.length_cons]
    omega

theorem wordAt_twoBytes {xs : List Nat} {i n : Nat} (h : xs[i]? = some n) (post : List Byte) :
    wordAt (xs.flatMap twoBytes ++ post) (2 * i) = BitVec.ofNat 16 n := by
  obtain ⟨hi, hn⟩ := List.getElem?_eq_some_iff.1 h
  have hsplit : xs = xs.take i ++ n :: xs.drop (i + 1) := by
    rw [← hn, List.cons_getElem_drop_succ, List.take_append_drop]
  have hlen : ((xs.take i).flatMap twoBytes).length = 2 * i := by
    rw [length_flatMap_twoBytes, List.length_take_of_le hi.le]
  have hword := wordAt_bytesOf ((xs.take i).flatMap twoBytes) (BitVec.ofNat 16 n)
    ((xs.drop (i + 1)).flatMap twoBytes ++ post)
  rw [hlen] at hword
  rw [hsplit, List.flatMap_append, List.flatMap_cons, List.append_assoc, List.append_assoc]
  exact hword

/-! ## The record's parts -/

/-- The bytes of a record after its time fields. -/
def recordTail (s : State) : List Byte :=
  match s.loader.load with
  | .configured cfg =>
    [conditionByte s.monitor.conditions, forcedByte s.channels] ++
    channelList.map (fun c => shownChannel (cfg.channel c) (s.channels.get c)) ++ s.counters.list.flatMap twoBytes
  | .loading | .unconfigured =>
    [0, 0] ++ channelList.map (fun _ => channelByte .off 1 0 0) ++ List.replicate 32 0

/-- The record's first two field bytes. -/
def recordHead (s : State) : List Byte :=
  match s.loader.load with
  | .configured _ => [recordFlags s true, BitVec.ofNat 8 s.register]
  | .loading | .unconfigured => [recordFlags s false, 1]

theorem recordFields_eq (s : State) : recordFields s = recordHead s ++ (timeFields s ++ recordTail s) := by
  unfold recordFields recordHead recordTail
  cases s.loader.load <;> simp only [List.append_assoc]

theorem length_recordHead (s : State) : (recordHead s).length = 2 := by
  unfold recordHead
  cases s.loader.load <;> rfl

/-- An id as a record shows it. -/
def shownWord (p : Option Program) : Word :=
  match p with
  | some q => q.id
  | none => 0

theorem shownId_eq (p : Option Program) : shownId p = bytesOf (shownWord p) := by
  cases p <;> rfl

theorem timeFields_eq (s : State) : timeFields s =
    BitVec.ofNat 8 (s.time.state.code + 16 * s.time.today.code) :: (bytesOf s.time.clock.day ++
      (BitVec.ofNat 8 (s.time.clock.tick / 100 / 65536) :: (bytesOf (BitVec.ofNat 16 (s.time.clock.tick / 100)) ++
        (bytesOf (shownWord s.programs.active) ++ bytesOf (shownWord s.programs.next))))) := by
  simp only [timeFields, threeBytes, twoBytes, shownId_eq, List.cons_append, List.append_assoc]

theorem length_timeFields (s : State) : (timeFields s).length = 10 := by
  simp [timeFields_eq, length_bytesOf]

theorem length_recordTail (s : State) : (recordTail s).length = 40 := by
  unfold recordTail
  cases s.loader.load with
  | configured cfg => simp only [List.length_append, length_flatMap_twoBytes, List.length_map]; rfl
  | loading => simp [channelList]
  | unconfigured => simp [channelList]

/-! ## The record's bytes by their places -/

section
variable (s : State)

theorem length_recordFields : (recordFields s).length = 52 := by
  simp [recordFields_eq, length_recordHead, length_timeFields, length_recordTail]

theorem statusRecord_eq : statusRecord s =
    [0xA5, 52] ++ (recordFields s ++ bytesOf (crc16 (52 :: recordFields s))) := rfl

theorem statusRecord_parts : ∃ check : Word, statusRecord s =
    ([0xA5, 52] ++ recordHead s) ++ (timeFields s ++ (recordTail s ++ bytesOf check)) := by
  refine ⟨crc16 (52 :: recordFields s), ?_⟩
  rw [statusRecord_eq, recordFields_eq]
  simp only [List.append_assoc]

theorem statusRecord_head {i : Nat} (h : i < 2) : byteAt (statusRecord s) (2 + i) = byteAt (recordHead s) i := by
  obtain ⟨check, hr⟩ := statusRecord_parts s
  rw [hr, List.append_assoc]
  refine (byteAt_append_right (pre := [0xA5, 52])).trans (byteAt_append_left ?_)
  rwa [length_recordHead]

theorem statusRecord_time {i : Nat} (h : i < 10) : byteAt (statusRecord s) (4 + i) = byteAt (timeFields s) i := by
  obtain ⟨check, hr⟩ := statusRecord_parts s
  have hlen : ([0xA5, 52] ++ recordHead s).length = 4 := by simp [length_recordHead]
  rw [hr, ← hlen]
  refine byteAt_append_right.trans (byteAt_append_left ?_)
  rwa [length_timeFields]

theorem statusRecord_tail {i : Nat} (h : i < 40) : byteAt (statusRecord s) (14 + i) = byteAt (recordTail s) i := by
  obtain ⟨check, hr⟩ := statusRecord_parts s
  have hlen : (([0xA5, 52] ++ recordHead s) ++ timeFields s).length = 14 := by
    simp [length_recordHead, length_timeFields]
  rw [hr, ← List.append_assoc, ← hlen]
  refine byteAt_append_right.trans (byteAt_append_left ?_)
  rwa [length_recordTail]

theorem statusRecord_time_word {i : Nat} (h : i < 9) : wordAt (statusRecord s) (4 + i) = wordAt (timeFields s) i := by
  rw [wordAt, wordAt, statusRecord_time s (by omega), Nat.add_assoc, statusRecord_time s (by omega)]

theorem statusRecord_tail_word {i : Nat} (h : i < 39) : wordAt (statusRecord s) (14 + i) = wordAt (recordTail s) i := by
  rw [wordAt, wordAt, statusRecord_tail s (by omega), Nat.add_assoc, statusRecord_tail s (by omega)]

/-- The record's check covers its bytes 1 to 53 (R200). -/
theorem statusRecord_check : (statusRecord s).length = 56 ∧
    crc16 (((statusRecord s).drop 1).take 53) = wordAt (statusRecord s) 54 := by
  have hlen : (52 :: recordFields s).length = 53 := by rw [List.length_cons, length_recordFields]
  have hcheck := wordAt_bytesOf (0xA5 :: 52 :: recordFields s) (crc16 (52 :: recordFields s)) []
  rw [List.append_nil, List.length_cons, hlen] at hcheck
  refine ⟨by simp [statusRecord_eq, length_recordFields, length_bytesOf], ?_⟩
  have hcovered : ((statusRecord s).drop 1).take 53 = 52 :: recordFields s := List.take_left' hlen
  rw [hcovered]
  exact hcheck.symm

end

/-! ## The time fields -/

theorem TimeState.code_lt (x : TimeState) : x.code < 4 := by cases x <;> decide

section
variable (s : State)

theorem timeFields_state : (byteAt (timeFields s) 0).toNat = s.time.state.code + 16 * s.time.today.code := by
  have hstate := s.time.state.code_lt
  have htoday := s.time.today.code_lt
  rw [timeFields_eq]
  change (BitVec.ofNat 8 _).toNat = _
  rw [BitVec.toNat_ofNat]
  omega

theorem timeFields_day : wordAt (timeFields s) 1 = s.time.clock.day := by
  rw [timeFields_eq]
  exact wordAt_bytesOf [_] _ _

theorem timeFields_seconds (h : s.time.clock.tick < 8640000) :
    65536 * (byteAt (timeFields s) 3).toNat + 256 * (byteAt (timeFields s) 4).toNat + (byteAt (timeFields s) 5).toNat =
      s.time.clock.tick / 100 := by
  have hlow : wordAt (timeFields s) 4 = BitVec.ofNat 16 (s.time.clock.tick / 100) := by
    rw [timeFields_eq]
    exact wordAt_bytesOf [_, _, _, _] (BitVec.ofNat 16 (s.time.clock.tick / 100)) _
  have hhigh : (byteAt (timeFields s) 3).toNat = (BitVec.ofNat 8 (s.time.clock.tick / 100 / 65536)).toNat := by
    rw [timeFields_eq]
    rfl
  have hword := wordAt_toNat (timeFields s) 4
  rw [hlow, BitVec.toNat_ofNat] at hword
  rw [hhigh, BitVec.toNat_ofNat, Nat.add_assoc, ← hword]
  omega

theorem timeFields_active : wordAt (timeFields s) 6 = shownWord s.programs.active := by
  rw [timeFields_eq]
  exact wordAt_bytesOf [_, _, _, _, _, _] (shownWord s.programs.active) _

theorem timeFields_next : wordAt (timeFields s) 8 = shownWord s.programs.next := by
  rw [timeFields_eq]
  exact wordAt_bytesOf [_, _, _, _, _, _, _, _] (shownWord s.programs.next) []

end

/-! ## The flags -/

theorem recordFlags_spec (s : State) (x : Bool) :
    (recordFlags s x).toNat < 8 ∧ ((recordFlags s x).toNat % 2 = 1 ↔ x = true) ∧
    ((recordFlags s x).toNat / 2 % 2 = 1 ↔ s.programs.active ≠ none) ∧
    ((recordFlags s x).toNat / 4 = 1 ↔ s.programs.next ≠ none) := by
  have hflags : ∀ x a n : Bool, let v := (BitVec.ofNat 8 (weight x 1 + weight a 2 + weight n 4)).toNat
      v < 8 ∧ (v % 2 = 1 ↔ x = true) ∧ (v / 2 % 2 = 1 ↔ a = true) ∧ (v / 4 = 1 ↔ n = true) := by decide
  simp only [← Option.isSome_iff_ne_none]
  exact hflags x _ _

theorem conditionByte_spec (v : Conditions) : (conditionByte v).toNat < 32 ∧
    ∀ k i, (k, i) ∈ [(Condition.timeInvalid, 0), (.noProgram, 1), (.silence, 2), (.mainsFreq, 3), (.timeStep, 4)] →
      ((conditionByte v).toNat / 2 ^ i % 2 = 1 ↔ v.get k = true) := by
  have hbits : ∀ a b c d e : Bool,
      let n := (BitVec.ofNat 8 (weight a 1 + weight b 2 + weight c 4 + weight d 8 + weight e 16)).toNat
      n < 32 ∧ (n / 2 ^ 0 % 2 = 1 ↔ a = true) ∧ (n / 2 ^ 1 % 2 = 1 ↔ b = true) ∧ (n / 2 ^ 2 % 2 = 1 ↔ c = true) ∧
        (n / 2 ^ 3 % 2 = 1 ↔ d = true) ∧ (n / 2 ^ 4 % 2 = 1 ↔ e = true) := by decide
  obtain ⟨hlt, ha, hb, hc, hd, he⟩ := hbits v.timeInvalid v.noProgram v.silence v.mainsFreq v.timeStep
  refine ⟨hlt, fun k i hk => ?_⟩
  simp only [List.mem_cons, Prod.mk.injEq, List.not_mem_nil, or_false] at hk
  obtain ⟨rfl, rfl⟩ | ⟨rfl, rfl⟩ | ⟨rfl, rfl⟩ | ⟨rfl, rfl⟩ | ⟨rfl, rfl⟩ := hk
  exacts [ha, hb, hc, hd, he]

theorem forcedByte_spec (v : Six ChannelUnit) : (forcedByte v).toNat < 64 ∧
    ∀ c, (forcedByte v).toNat / 2 ^ channelPlace c % 2 = 1 ↔ (v.get c).forced = true := by
  have hbits : ∀ a b c d e f : Bool, let n := (BitVec.ofNat 8 (weight a 1 + weight b 2 + weight c 4 + weight d 8 +
        weight e 16 + weight f 32)).toNat
      n < 64 ∧ (n / 2 ^ 0 % 2 = 1 ↔ a = true) ∧ (n / 2 ^ 1 % 2 = 1 ↔ b = true) ∧ (n / 2 ^ 2 % 2 = 1 ↔ c = true) ∧
        (n / 2 ^ 3 % 2 = 1 ↔ d = true) ∧ (n / 2 ^ 4 % 2 = 1 ↔ e = true) ∧ (n / 2 ^ 5 % 2 = 1 ↔ f = true) := by decide
  obtain ⟨hlt, h1, h2, h3, h4, h5, h6⟩ :=
    hbits v.ch1.forced v.ch2.forced v.ch3.forced v.ch4.forced v.ch5.forced v.ch6.forced
  refine ⟨hlt, fun c => ?_⟩
  cases c
  exacts [h1, h2, h3, h4, h5, h6]

theorem Imposed.kind_le (i : Imposed) : i.kind ≤ 3 := by
  cases i with
  | none => decide
  | force l p => cases l <;> simp [Imposed.kind]
  | cycle f => exact le_rfl

theorem Imposed.phase_le (i : Imposed) : i.phase ≤ 2 := by
  cases i with
  | none => decide
  | force l p => cases p <;> simp [Imposed.phase]
  | cycle f => exact le_rfl

theorem ChannelState.code_le (x : ChannelState) : x.code ≤ 3 := by cases x <;> simp [ChannelState.code]

theorem channelByte_toNat (l : Level) {state kind phase : Nat} (hs : state ≤ 3) (hk : kind ≤ 3) (hp : phase ≤ 2) :
    (channelByte l state kind phase).toNat = (if l = .on then 1 else 0) + 2 * state + 8 * kind + 32 * phase := by
  have hweight : weight (l = .on) 1 = if l = .on then 1 else 0 := by cases l <;> rfl
  rw [channelByte, BitVec.toNat_ofNat, hweight]
  refine Nat.mod_eq_of_lt ?_
  split_ifs <;> omega

/-! ## The line STX (R196) -/

theorem character_length (b : Byte) : (character b).length = 10 := rfl

theorem serialBits_length (record : List Byte) : (serialBits record).length = 10 * record.length := by
  induction record with
  | nil => rfl
  | cons b bs ih =>
    rw [serialBits, List.flatMap_cons, List.length_append, character_length, List.length_cons]
    rw [serialBits] at ih
    omega

/-- Each byte's ten bits stand together, in the order of the bytes. -/
theorem serialBits_getD {record : List Byte} {i j : Nat} (hi : i < record.length) (hj : j < 10) :
    (serialBits record).getD (10 * i + j) true = (character (byteAt record i)).getD j true := by
  induction record generalizing i with
  | nil => simp at hi
  | cons b bs ih =>
    cases i with
    | zero =>
      rw [serialBits, List.flatMap_cons, Nat.mul_zero, Nat.zero_add]
      exact List.getD_append _ _ _ _ hj
    | succ i =>
      have := ih (i := i) (by simpa using hi)
      rw [serialBits, List.flatMap_cons, List.getD_append_right _ _ _ _ (by rw [character_length]; omega),
        character_length, show 10 * (i + 1) + j - 10 = 10 * i + j by omega]
      exact this

section
variable {s : State} {e : Emission} {k : Nat}

theorem State.stxLevel_of_emitting (hrun : s.running = true) (hl : s.loader.load ≠ .loading)
    (he : s.status.emission = some e) :
    s.stxLevel k = some ((serialBits e.record).getD (96 * (s.elapsed - e.startedAt) + k) true) := by
  unfold State.stxLevel State.stxDriven
  rw [if_pos hrun, he]
  cases hload : s.loader.load with
  | loading => exact absurd hload hl
  | unconfigured => rfl
  | configured cfg => rfl

theorem State.stxLevel_of_idle (hrun : s.running = true) (h : s.loader.load = .loading ∨ s.status.emission = none) :
    s.stxLevel k = some true := by
  unfold State.stxLevel State.stxDriven
  rw [if_pos hrun]
  obtain h | h := h
  · rw [h]
  · rw [h]
    cases s.loader.load <;> rfl

theorem State.stxLevel_of_stopped (h : s.running = false) : s.stxLevel k = none := if_neg (by simp [State.stxDriven, h])

end

theorem character_bit (b : Byte) {j : Nat} (hj : j < 8) : (character b).getD (1 + j) true = b.getLsbD j := by
  rw [character, Nat.add_comm, List.cons_append, List.getD_cons_succ, List.getD_append _ _ _ _ (by simpa using hj)]
  simp [List.getD_eq_getElem?_getD, hj]

/-! ## The record of each state -/

section
variable {s : State} {cfg : Configuration}

theorem recordTail_channel (hl : s.loader.load = .configured cfg) (c : Channel) :
    byteAt (recordTail s) (2 + channelPlace c) = shownChannel (cfg.channel c) (s.channels.get c) := by
  rw [recordTail, hl]
  cases c <;> rfl

theorem recordTail_counter (hl : s.loader.load = .configured cfg) {i n : Nat} (h : s.counters.list[i]? = some n) :
    wordAt (recordTail s) (8 + 2 * i) = BitVec.ofNat 16 n := by
  have htail : (recordTail s).drop 8 = s.counters.list.flatMap twoBytes ++ [] := by
    rw [recordTail, hl, List.append_nil]
    rfl
  rw [← wordAt_drop, htail, wordAt_twoBytes h]

/-- The record of a CONFIGURED part (R200, R204). -/
theorem recordTail_of_configured (hl : s.loader.load = .configured cfg) :
    byteAt (recordHead s) 0 = recordFlags s true ∧ byteAt (recordHead s) 1 = BitVec.ofNat 8 s.register ∧
    byteAt (recordTail s) 0 = conditionByte s.monitor.conditions ∧ byteAt (recordTail s) 1 = forcedByte s.channels := by
  rw [recordHead, recordTail, hl]
  exact ⟨rfl, rfl, rfl, rfl⟩

/-- The record of a part that holds no configuration values (R204). -/
theorem recordTail_of_not_configured (hl : ∀ cfg, s.loader.load ≠ .configured cfg) :
    byteAt (recordHead s) 0 = recordFlags s false ∧ byteAt (recordHead s) 1 = 1 ∧
    byteAt (recordTail s) 0 = 0 ∧ byteAt (recordTail s) 1 = 0 ∧
    (∀ c, byteAt (recordTail s) (2 + channelPlace c) = 2) ∧ ∀ i, i < 16 → wordAt (recordTail s) (8 + 2 * i) = 0 := by
  have htail : recordTail s = [0, 0] ++ channelList.map (fun _ => channelByte .off 1 0 0) ++ List.replicate 32 0 := by
    unfold recordTail
    split
    next cfg h => exact absurd h (hl cfg)
    · rfl
    · rfl
  have hhead : recordHead s = [recordFlags s false, 1] := by
    unfold recordHead
    split
    next cfg h => exact absurd h (hl cfg)
    · rfl
    · rfl
  have hwords : ∀ i, i < 16 → wordAt ([0, 0] ++ channelList.map (fun _ => channelByte .off 1 0 0) ++
      List.replicate 32 0) (8 + 2 * i) = 0 := by decide
  rw [htail, hhead]
  refine ⟨rfl, rfl, rfl, rfl, fun c => ?_, hwords⟩
  cases c <;> rfl

end

/-- Settles O51: each field by the lemma about its bytes. -/
theorem statusRecordShowsThePart : Obligations.StatusRecordShowsThePart := by
  intro s r at_
  obtain ⟨hlen, hcheck⟩ := statusRecord_check s
  have hhead : ∀ i, i < 2 → at_ (2 + i) = (byteAt (recordHead s) i).toNat := fun i hi =>
    congrArg BitVec.toNat (statusRecord_head s hi)
  have htime : ∀ i, i < 10 → at_ (4 + i) = (byteAt (timeFields s) i).toNat := fun i hi =>
    congrArg BitVec.toNat (statusRecord_time s hi)
  have htail : ∀ i, i < 40 → at_ (14 + i) = (byteAt (recordTail s) i).toNat := fun i hi =>
    congrArg BitVec.toNat (statusRecord_tail s hi)
  have htimeWord : ∀ i, i < 9 → wordAt r (4 + i) = wordAt (timeFields s) i := fun i => statusRecord_time_word s
  have htailWord : ∀ i, i < 39 → wordAt r (14 + i) = wordAt (recordTail s) i := fun i => statusRecord_tail_word s
  have hflags : ∃ x, at_ 2 = (recordFlags s x).toNat := by
    rw [hhead 0 (by decide)]
    cases hl : s.loader.load with
    | configured cfg => exact ⟨true, congrArg BitVec.toNat (recordTail_of_configured hl).1⟩
    | loading => exact ⟨false, congrArg BitVec.toNat (recordTail_of_not_configured (by simp [hl])).1⟩
    | unconfigured => exact ⟨false, congrArg BitVec.toNat (recordTail_of_not_configured (by simp [hl])).1⟩
  obtain ⟨x, hx⟩ := hflags
  obtain ⟨hflagsLt, -, hactive, hnext⟩ := recordFlags_spec s x
  have hplace : ∀ c, channelPlace c < 6 := fun c => by cases c <;> decide
  refine ⟨hlen, rfl, rfl, hcheck, ?_, fun k => State.stxLevel_of_stopped, fun k => State.stxLevel_of_idle,
    fun e k hrun hl he => ?_, rfl, rfl, fun n => rfl, fun p q f => rfl, fun l n r f => rfl, ?_, ?_, fun ht => ?_,
    fun p hp => ?_, fun hp => ?_, fun p hp => ?_, fun hp => ?_, by rwa [hx], by rwa [hx], by rwa [hx], fun cfg hl => ?_,
    fun hl => ?_⟩
  · rw [serialBits_length, hlen]
  · intro place
    rw [State.stxLevel_of_emitting hrun hl he]
    have hbit : ∀ i j, i < e.record.length → j < 10 → place = 10 * i + j →
        some ((serialBits e.record).getD place true) = some ((character (byteAt e.record i)).getD j true) :=
      fun i j hi hj hp => by rw [hp, serialBits_getD hi hj]
    refine ⟨fun i hi => ⟨fun hp => hbit i 0 hi (by decide) hp, fun j hj hp => ?_, fun hp => hbit i 9 hi (by decide) hp⟩,
      fun hlong => ?_⟩
    · exact (hbit i (1 + j) hi (by omega) (by omega)).trans (congrArg some (character_bit _ hj))
    · exact congrArg some (List.getD_eq_default _ _ (by rwa [serialBits_length]))
  · rw [htime 0 (by decide), timeFields_state]
  · rw [htimeWord 1 (by decide), timeFields_day]
  · rw [htime 3 (by decide), htime 4 (by decide), htime 5 (by decide), timeFields_seconds s ht]
  · rw [htimeWord 6 (by decide), timeFields_active, hp]
    rfl
  · rw [htimeWord 6 (by decide), timeFields_active, hp]
    rfl
  · rw [htimeWord 8 (by decide), timeFields_next, hp]
    rfl
  · rw [htimeWord 8 (by decide), timeFields_next, hp]
    rfl
  · obtain ⟨h0, h1, hc, hf⟩ := recordTail_of_configured hl
    have hchannel : ∀ c, at_ (16 + channelPlace c) = (shownChannel (cfg.channel c) (s.channels.get c)).toNat := fun c => by
      rw [show 16 + channelPlace c = 14 + (2 + channelPlace c) by omega,
        htail _ (Nat.lt_trans (Nat.add_lt_add_left (hplace c) 2) (by decide)), recordTail_channel hl]
    rw [hhead 0 (by decide), hhead 1 (by decide), htail 0 (by decide), htail 1 (by decide), h0, h1, hc, hf]
    refine ⟨(recordFlags_spec s true).2.1.2 rfl, (conditionByte_spec _).1, (forcedByte_spec _).1, fun hr => ?_,
      (conditionByte_spec _).2, (forcedByte_spec _).2, fun c hu => ?_, fun c hu => ?_, fun i n hn hle => ?_⟩
    · rw [BitVec.toNat_ofNat]
      omega
    · intro u
      rw [hchannel, shownChannel, if_pos hu]
      exact channelByte_toNat _ (ChannelState.code_le _) (Imposed.kind_le _) (Imposed.phase_le _)
    · rw [hchannel, shownChannel, if_neg (by simp [hu])]
      rfl
    · have hi : i < 16 := (List.getElem?_eq_some_iff.1 hn).1
      rw [show 22 + 2 * i = 14 + (8 + 2 * i) by omega, htailWord _ (by omega), recordTail_counter hl hn,
        BitVec.toNat_ofNat]
      omega
  · obtain ⟨h0, h1, hc, hf, hchannels, hcounters⟩ := recordTail_of_not_configured (s := s) (by simp [hl])
    rw [hhead 0 (by decide), hhead 1 (by decide), htail 0 (by decide), htail 1 (by decide), h0, h1, hc, hf]
    refine ⟨?_, rfl, rfl, rfl, fun c => ?_, fun i hi => ?_⟩
    · have hclear := (recordFlags_spec s false).2.1
      simp only [Bool.false_eq_true, iff_false] at hclear
      omega
    · rw [show 16 + channelPlace c = 14 + (2 + channelPlace c) by omega,
        htail _ (Nat.lt_trans (Nat.add_lt_add_left (hplace c) 2) (by decide)), hchannels]
      rfl
    · rw [show 22 + 2 * i = 14 + (8 + 2 * i) by omega, htailWord _ (by omega), hcounters i hi]

end Sys2Proof.Machine
end

section
/-! PROOF. Accepted orders at the channels they name (sections 2.4, 7.2 and 8.5). -/

namespace Sys2Proof.Machine

section
variable {s : State} {cfg : Configuration} {bytes : List Byte}

/-- An accepted copy is routed from a state that differs from the one before it only by the other three actions
of the acceptance, and they alone follow the routing (R30). -/
theorem State.reception_routed (hrun : s.runsWith cfg) (hend : s.endsReception bytes) (h : s.accepts cfg bytes)
    (levels : Rat) : ∃ u, s.endReception.aside u ∧
      (u.route cfg bytes).aside (s.after (.receptionEnd bytes levels)) := by
  rw [State.after_receptionEnd_of_accepts hrun hend h]
  exact State.accept_routed cfg bytes _ _

/-- While SILENCE is inactive the other actions of an acceptance leave the conditions alone. -/
theorem State.aside.conditions {t : State} (h : s.aside t) (hquiet : s.monitor.conditions.silence = false) :
    t.monitor.conditions = s.monitor.conditions := by
  rw [h.monitor, (h.quiet hquiet).1, ← hquiet]

/-- A count that is not one of the two of an acceptance stands. -/
theorem State.aside.count {t : State} (h : s.aside t) (f : Counters → Nat)
    (hf : ∀ c a b, f { c with rxOk := a, relayDropped := b } = f c) : f t.counters = f s.counters := by
  rw [h.counters]
  exact hf _ _ _

theorem State.route_of_order (hkind : kindOf bytes = 2) (haddr : addresses cfg (targetOf bytes) = true) :
    s.route cfg bytes = s.routeOrder cfg bytes := by
  unfold State.route
  rw [if_neg (by omega), if_pos hkind, if_pos haddr]

/-- What an order makes of a channel, named or not (R125). -/
def State.namedWork (s : State) (cfg : Configuration) (payload : List Byte) (f : ChannelConfig → Work → Work)
    (c : Channel) : Work :=
  if namesChannel payload c then f (cfg.channel c) (Work.idle (s.channels.get c)) else Work.idle (s.channels.get c)

/-- The reports and counts of an order at the channels it names, and what it leaves alone. -/
def State.actedOn (s t : State) (work : Channel → Work) : Prop :=
  (∀ c, t.channels.get c = (work c).unit) ∧
  t.counters.ordersApplied = saturate s.counters.ordersApplied (channelList.map fun c => (work c).applied).sum ∧
  t.counters.ordersRefused = saturate s.counters.ordersRefused (channelList.map fun c => (work c).refused).sum ∧
  t.status = { s.status with changePending :=
    s.status.changePending || channelList.any fun c => (work c).changed } ∧
  s.keepsAllBut [.meetings, .line, .origins, .relay, .channels, .monitor, .status, .counters] t

theorem State.atNamedChannels_actedOn (payload : List Byte) (f : ChannelConfig → Work → Work) :
    s.actedOn (s.atNamedChannels cfg payload f) (s.namedWork cfg payload f) := by
  have hcounters := s.onEachChannel_counters fun c u =>
    if namesChannel payload c then f (cfg.channel c) (Work.idle u) else Work.idle u
  exact ⟨fun c => s.onEachChannel_get _ c, congrArg Counters.ordersApplied hcounters,
    congrArg Counters.ordersRefused hcounters, s.onEachChannel_status _,
    (s.atNamedChannels_frame cfg payload f).mono (by decide)⟩

/-- What an acceptance does beside routing does not show in what the order did. -/
theorem State.actedOn.between {u v t : State} {work : Channel → Work} (hbefore : s.endReception.aside u)
    (hquiet : s.monitor.conditions.silence = false) (hv : u.actedOn v work)
    (hcond : v.monitor.conditions = u.monitor.conditions) (hafter : v.aside t) : s.actedOn t work := by
  obtain ⟨hchannels, happlied, hrefused, hstatus, hframe⟩ := hv
  obtain ⟨hquietU, -, hstatusU⟩ := hbefore.quiet hquiet
  obtain ⟨-, hchannelsT, hstatusT⟩ := hafter.quiet (by rw [hcond]; exact hquietU)
  refine ⟨fun c => by rw [hchannelsT]; exact hchannels c, ?_, ?_, by rw [hstatusT, hstatus, hstatusU]; rfl, ?_⟩
  · rw [hafter.count Counters.ordersApplied fun _ _ _ => rfl, happlied,
      hbefore.count Counters.ordersApplied fun _ _ _ => rfl]
    rfl
  · rw [hafter.count Counters.ordersRefused fun _ _ _ => rfl, hrefused,
      hbefore.count Counters.ordersRefused fun _ _ _ => rfl]
    rfl
  · exact (((s.endReception_frame).mono (by decide)).trans (hbefore.frame.mono (by decide))).trans
      (hframe.trans (hafter.frame.mono (by decide)))

/-- An accepted order for channels acts on the channels as they stood (R34). -/
theorem State.reception_actedOn (hrun : s.runsWith cfg) (hend : s.endsReception bytes) (h : s.accepts cfg bytes)
    (hkind : kindOf bytes = 2) (haddr : addresses cfg (targetOf bytes) = true)
    (hquiet : s.monitor.conditions.silence = false) (levels : Rat) {f : ChannelConfig → Work → Work}
    (hf : ∀ u : State, u.monitor.conditions = s.monitor.conditions →
      u.routeOrder cfg bytes = u.atNamedChannels cfg (payloadOf bytes) f) :
    s.actedOn (s.after (.receptionEnd bytes levels)) (s.namedWork cfg (payloadOf bytes) f) := by
  obtain ⟨u, hbefore, hafter⟩ := State.reception_routed hrun hend h levels
  have hchannels : u.channels = s.channels := (hbefore.quiet hquiet).2.1
  have hwork : s.namedWork cfg (payloadOf bytes) f = u.namedWork cfg (payloadOf bytes) f := by
    unfold State.namedWork
    rw [hchannels]
  rw [State.route_of_order hkind haddr, hf u (hbefore.conditions hquiet)] at hafter
  rw [hwork]
  exact .between hbefore hquiet (State.atNamedChannels_actedOn _ _)
    (congrArg Monitor.conditions ((u.atNamedChannels_frame cfg (payloadOf bytes) f) .monitor (by decide))) hafter

/-- Settles O41: the named channels take the order, whatever else the acceptance does before or after. -/
theorem ordersReachTheNamedChannels : Obligations.OrdersReachTheNamedChannels := by
  intro s cfg bytes levels hrun hend h hkind haddr hquiet
  refine ⟨_, exec_eq_next _ s, ?_⟩
  intro acts
  refine ⟨fun o ho => ?_, fun on hon => ?_, fun hrelease => ?_, fun hunknown => ?_⟩
  · exact State.reception_actedOn hrun hend h hkind haddr hquiet levels fun u _ => by
      unfold State.routeOrder; rw [ho]
  · refine State.reception_actedOn hrun hend h hkind haddr hquiet levels (f := fun cc w =>
      w.forceSafe cc cfg.stagger s.monitor.conditions (originOf bytes) (serialOf bytes) on) fun u hu => ?_
    unfold State.routeOrder; rw [hon, ← hu]
  · exact State.reception_actedOn hrun hend h hkind haddr hquiet levels fun u _ => by
      unfold State.routeOrder; rw [hrelease]
  · obtain ⟨u, hbefore, hafter⟩ := State.reception_routed hrun hend h levels
    obtain ⟨hquietU, hchannelsU, hstatusU⟩ := hbefore.quiet hquiet
    have hroute : u.route cfg bytes = u.count .ordersRefused := by
      rw [State.route_of_order hkind haddr]
      unfold State.routeOrder
      rw [hunknown]
    rw [hroute] at hafter
    obtain ⟨-, hchannels, hstatus⟩ := hafter.quiet hquietU
    refine ⟨hchannels.trans hchannelsU, hstatus.trans hstatusU, ?_, ?_⟩
    · exact (hafter.count Counters.ordersRefused fun _ _ _ => rfl).trans
        (congrArg (saturate · 1) (hbefore.count Counters.ordersRefused fun _ _ _ => rfl))
    · exact (hafter.count Counters.ordersApplied fun _ _ _ => rfl).trans
        (hbefore.count Counters.ordersApplied fun _ _ _ => rfl)

end
end Sys2Proof.Machine
end

section
/-! PROOF. What a resolution hands on (section 6.3). -/

namespace Sys2Proof.Machine

section
variable (cfg : Configuration) (s : State)

/-- A changed band is handed to every controller (R115). -/
theorem State.handBand_get (b : Option ResolvedBand) (c : Channel) :
    (s.handBand cfg b).channels.get c = if s.resolver.band = b then s.channels.get c
      else ((Work.idle (s.channels.get c)).takeBand (cfg.channel c) (handedBand s.programs.active b c)).unit := by
  unfold State.handBand
  split_ifs
  · rfl
  · exact State.onEachChannel_get _ _ c

theorem State.handIndex_status (n : Nat) : (s.handIndex n).status =
    if s.resolver.index = n then s.status else { s.status with changePending := true } := by
  unfold State.handIndex
  split_ifs <;> rfl

theorem State.resolveOver_get (windows : List (Option Window)) (c : Channel) :
    (s.resolveOver cfg windows).channels.get c =
      if s.resolver.band = bandNow s.programs.active s.time windows then s.channels.get c
      else ((Work.idle (s.channels.get c)).takeBand (cfg.channel c)
        (handedBand s.programs.active (bandNow s.programs.active s.time windows) c)).unit := by
  rw [← State.handBand_get]
  exact congrArg (fun v => Six.get v c) (State.handIndex_frame _ _ .channels (by decide))

variable {cfg s}

/-- A resolution that finds the band last handed leaves the channels alone (R115). -/
theorem State.resolve_channels (hband : s.resolver.band = bandNow s.programs.active s.time s.resolver.windows) :
    (s.resolve cfg).channels = s.channels := by
  refine (State.handIndex_frame _ _ .channels (by decide) : _ = (s.handBand cfg _).channels).trans ?_
  rw [State.handBand, if_pos hband]

/-- A resolution that finds what was last handed is not seen (R115). -/
theorem State.resolve_eq_self (hband : s.resolver.band = bandNow s.programs.active s.time s.resolver.windows)
    (hindex : s.resolver.index = registerIndex cfg s.programs.active s.time s.resolver.windows) :
    s.resolve cfg = s := by
  rw [State.resolve, State.resolveOver, State.handBand, if_pos hband, State.handIndex, if_pos hindex]

/-- A changed register index is reported (R198). -/
theorem State.resolve_status_of_changed (hs : s.resolver.index = s.register)
    (h : (s.resolve cfg).register ≠ s.register) : (s.resolve cfg).status.changePending = true := by
  have hregister : (s.resolve cfg).register = registerIndex cfg s.programs.active s.time s.resolver.windows :=
    State.resolveOver_register cfg _ s hs
  unfold State.resolve State.resolveOver
  rw [State.handIndex_status, State.handBand_band]
  rw [if_neg fun heq => h (hregister.trans ((Eq.symm heq).trans hs))]

end

theorem handedBand_bandNow (active : Option Program) (t : Timekeeper) (windows : List (Option Window)) (c : Channel) :
    handedBand active (bandNow active t windows) c = active.map fun p =>
      let b := p.band (resolvedBand p t windows).1
      ⟨(resolvedBand p t windows).1, b.cls, b.action.get c⟩ := by
  cases active <;> rfl

/-- With no active program, or in no valid time state, the index is the fallback register (R114). -/
theorem registerIndex_of_fallback {cfg : Configuration} {active : Option Program} {t : Timekeeper}
    {windows : List (Option Window)} (h : active = none ∨ t.state.valid = false) :
    registerIndex cfg active t windows = cfg.fallbackRegister := by
  cases active with
  | none => rfl
  | some p => exact if_neg (by simp [h.resolve_left (by simp)])

/-- The register lines present the index less one (R180). -/
theorem State.registerLines_toNat {s : State} (hlow : 1 ≤ s.register) (hhigh : s.register ≤ 8) :
    s.registerLines.toNat = s.register - 1 := by
  rw [State.registerLines, BitVec.toNat_ofNat]
  exact Nat.mod_eq_of_lt (by omega)

/-- Settles O36, by what a resolution hands to the controllers and to the Output Stage. -/
theorem resolutionHandsWhatChanged : Obligations.ResolutionHandsWhatChanged := by
  refine ⟨fun s hlow hhigh => ?_, fun s cfg hs => ?_⟩
  · have hlines := State.registerLines_toNat hlow hhigh
    refine ⟨hlines, ?_, ?_⟩
    · rw [← BitVec.toNat_inj, hlines, BitVec.toNat_ofNat]
      omega
    · rw [← BitVec.toNat_inj, hlines, BitVec.toNat_ofNat]
      omega
  · intro t band
    have hregister : t.register = registerIndex cfg s.programs.active s.time s.resolver.windows :=
      State.resolveOver_register cfg _ s hs
    have hresolver := State.resolve_resolver cfg s
    refine ⟨congrArg Resolver.band hresolver, State.resolve_windows cfg s, State.resolveOver_index hs,
      fun p hp hv => ?_, fun hnone => ?_, fun hcfg hord => ?_, fun hne c => ?_, fun heq => State.resolve_channels heq,
      fun hne => State.resolve_status_of_changed hs hne, fun hband heq => ?_, State.resolve_frame cfg s⟩
    · rw [hregister, hp]
      exact if_pos hv
    · rw [hregister]
      exact registerIndex_of_fallback hnone
    · rw [hregister]
      exact registerIndex_range hcfg (fun p hp => hord.2.1 p hp) _ _
    · have hne' : ¬ s.resolver.band = bandNow s.programs.active s.time s.resolver.windows := hne
      have hget := (s.resolveOver_get cfg s.resolver.windows c).trans (if_neg hne')
      exact (congrArg ChannelUnit.band hget).trans (by rw [Work.takeBand_band, handedBand_bandNow])
    · exact State.resolve_eq_self hband (hs.trans (heq.symm.trans hregister))

end Sys2Proof.Machine
end

section
/-! PROOF. What the events of the tariff and of the conditions report, and what they leave resolved (sections 5.4,
6.3 and 8.1). -/

namespace Sys2Proof.Machine

/-! ## Reports (R198) -/

/-- The Status Port may have been told of a change, and it was told when an activation or a change of condition took
place (R198). -/
structure State.reports (s t : State) : Prop where
  noted : s.status.mayNote t.status
  told : t.programs ≠ s.programs ∨ t.monitor.conditions ≠ s.monitor.conditions → t.status.changePending = true

section
variable {s t u : State}

theorem State.reports.refl (s : State) : s.reports s where
  noted := ⟨rfl, rfl, id⟩
  told h := h.elim (absurd rfl) (absurd rfl)

theorem State.reports.trans (h : s.reports t) (h' : t.reports u) : s.reports u where
  noted := ⟨h'.noted.1.trans h.noted.1, h'.noted.2.1.trans h.noted.2.1, fun hp => h'.noted.2.2 (h.noted.2.2 hp)⟩
  told hne := by
    by_cases ht : t.programs = s.programs ∧ t.monitor.conditions = s.monitor.conditions
    · rw [← ht.1, ← ht.2] at hne
      exact h'.told hne
    · exact h'.noted.2.2 (h.told (Decidable.or_iff_not_not_and_not.2 fun hn =>
        ht ⟨Decidable.not_not.1 hn.1, Decidable.not_not.1 hn.2⟩))

theorem State.reports_of_frame {ps : List Part} (h : s.keepsAllBut ps t)
    (hp : ∀ p ∈ [Part.programs, .monitor, .status], p ∉ ps) : s.reports t := by
  have hprograms : t.programs = s.programs := h .programs (hp _ (by simp))
  have hmonitor : t.monitor = s.monitor := h .monitor (hp _ (by simp))
  have hstatus : t.status = s.status := h .status (hp _ (by simp))
  refine ⟨by rw [hstatus]; exact ⟨rfl, rfl, id⟩, fun hne => ?_⟩
  rw [hprograms, hmonitor] at hne
  exact hne.elim (absurd rfl) (absurd rfl)

/-- A change noted is a report of whatever else was done. -/
theorem State.reports_of_noted (h : t.status = { s.status with changePending := true }) : s.reports t := by
  exact ⟨by rw [h]; exact ⟨rfl, rfl, fun _ => rfl⟩, fun _ => by rw [h]⟩

/-- What notes a change at most reports it, where the programs and the conditions stand. -/
theorem State.reports_of_noting {ps : List Part} (h : s.keepsAllBut ps t)
    (hp : ∀ p ∈ [Part.programs, .monitor], p ∉ ps)
    (hstatus : t.status = s.status ∨ t.status = { s.status with changePending := true }) : s.reports t := by
  obtain hsame | hnoted := hstatus
  · have hprograms : t.programs = s.programs := h .programs (hp _ (by simp))
    have hmonitor : t.monitor = s.monitor := h .monitor (hp _ (by simp))
    refine ⟨by rw [hsame]; exact ⟨rfl, rfl, id⟩, fun hne => ?_⟩
    rw [hprograms, hmonitor] at hne
    exact hne.elim (absurd rfl) (absurd rfl)
  · exact State.reports_of_noted hnoted

theorem State.inSomeOrder_reports {acts : List (State → State)} (h : ∀ act ∈ acts, ∀ s : State, s.reports (act s)) :
    s.reports (s.inSomeOrder acts) :=
  State.inSomeOrder_keeps (P := fun t => s.reports t) (fun act ha t ht => ht.trans (h act ha t))
    (State.reports_of_frame s.met_frame (by decide))

variable (cfg : Configuration) (s)

theorem State.onEachChannel_noting (f : Channel → ChannelUnit → Work) : (s.onEachChannel f).status = s.status ∨
    (s.onEachChannel f).status = { s.status with changePending := true } := by
  rw [State.onEachChannel_status]
  cases channelList.any fun c => (f c (s.channels.get c)).changed with
  | false => exact .inl (by rw [Bool.or_false])
  | true => exact .inr (by rw [Bool.or_true])

theorem State.handBand_reports (b : Option ResolvedBand) : s.reports (s.handBand cfg b) := by
  refine State.reports_of_noting (s.handBand_frame cfg b) (by decide) ?_
  unfold State.handBand
  split_ifs
  · exact .inl rfl
  · exact State.onEachChannel_noting (s.setResolver _) _

theorem State.handIndex_reports (n : Nat) : s.reports (s.handIndex n) := by
  refine State.reports_of_noting (s.handIndex_frame n) (by decide) ?_
  rw [State.handIndex_status]
  split_ifs
  · exact .inl rfl
  · exact .inr rfl

theorem State.resolveOver_reports (windows : List (Option Window)) : s.reports (s.resolveOver cfg windows) :=
  (s.handBand_reports cfg _).trans (State.handIndex_reports _ _)

theorem State.resolve_reports : s.reports (s.resolve cfg) := s.resolveOver_reports cfg _

theorem State.expireWindows_reports : s.reports s.expireWindows :=
  State.reports_of_frame s.expireWindows_frame (by decide)

theorem State.expireAndResolve_reports : s.reports (s.expireAndResolve cfg) :=
  s.expireWindows_reports.trans (State.resolve_reports _ cfg)

theorem State.resolverTimeState_reports (before : TimeState) : s.reports (s.resolverTimeState cfg before) := by
  unfold State.resolverTimeState
  split_ifs
  · exact s.expireAndResolve_reports cfg
  · exact s.resolve_reports cfg

theorem State.setCondition_reports (k : Condition) (x : Bool) : s.reports (s.setCondition cfg k x) := by
  by_cases h : s.monitor.conditions.get k = x
  · rw [State.setCondition_eq_self cfg s h]
    exact .refl s
  · exact State.reports_of_noted (State.setCondition_changes h).2.1

theorem State.reportTimeInvalid_reports : s.reports (s.reportTimeInvalid cfg) := s.setCondition_reports cfg _ _

theorem State.reportStep_reports : s.reports (s.reportStep cfg) := by
  refine State.reports.trans
    (t := s.setMonitor { s.monitor with stepHold := Config.stepHoldSeconds, stepHoldSet := true })
    ⟨⟨rfl, rfl, id⟩, fun h => ?_⟩ (State.setCondition_reports _ cfg _ _)
  exact h.elim (absurd rfl) (absurd rfl)

theorem State.activate_reports (awaited : List Moment) (p : Program) : s.reports (s.activate cfg awaited p) := by
  refine State.reports.trans (t := (s.setPrograms { s.programs with active := some p, next := none }).noteChange)
    (State.reports_of_noted rfl) (State.inSomeOrder_reports fun act hact t => ?_)
  simp only [List.mem_cons, List.not_mem_nil, or_false] at hact
  obtain rfl | rfl := hact
  · exact t.resolveOver_reports cfg _
  · exact t.setCondition_reports cfg _ _

theorem State.examineAwaiting_reports (awaited : List Moment) : s.reports (s.examineAwaiting cfg awaited) :=
  State.examineAwaiting_keeps (P := fun t => s.reports t) (.refl s) fun p => s.activate_reports cfg awaited p

/-- A program that becomes active is reported (R96, R198). -/
theorem State.activate_pending (awaited : List Moment) (p : Program) :
    (s.activate cfg awaited p).status.changePending = true := by
  have hacts : ∀ act ∈ [State.resolveAwaiting cfg awaited, State.reportProgram cfg], ∀ t : State,
      t.reports (act t) := fun act hact t => by
    simp only [List.mem_cons, List.not_mem_nil, or_false] at hact
    obtain rfl | rfl := hact
    · exact t.resolveOver_reports cfg _
    · exact t.setCondition_reports cfg _ _
  exact (State.inSomeOrder_reports (s := (s.setPrograms _).noteChange) hacts).noted.2.2 rfl

theorem State.takeClasses_reports (b : Beacon) : s.reports (s.takeClasses cfg b) := by
  have hset : s.reports (s.setTime (s.time.takeClasses b)) := State.reports_of_frame (s.setTime_frame _) (by decide)
  unfold State.takeClasses
  dsimp only
  split_ifs
  · exact hset
  · exact hset.trans (State.resolve_reports _ cfg)

theorem State.clockEvent_reports (awaited : List Moment) (e : ClockEvent) : s.reports (s.clockEvent cfg awaited e) := by
  cases e with
  | boundary => exact s.resolveOver_reports cfg _
  | windowStart => exact s.resolveOver_reports cfg _
  | windowEnd => exact s.expireWindows_reports.trans (State.resolveOver_reports _ cfg _)
  | activation => exact s.examineAwaiting_reports cfg awaited

end

/-! ## Resolution where the index need not be the one last driven -/

/-- The resolved band is that of the present moment, and so is the register index where `p` says that the index was
the one last driven. -/
def State.resolvedGiven (p : Prop) (cfg : Configuration) (s : State) : Prop :=
  s.resolver.band = bandNow s.programs.active s.time s.resolver.windows ∧ (p → s.resolved cfg)

section
variable {p : Prop} {cfg : Configuration} {s : State}

theorem State.resolvedGiven.index (h : s.resolvedGiven p cfg) (hp : p) : s.resolver.index = s.register := (h.2 hp).2.2

theorem State.resolve_resolvedGiven (h : p → s.resolver.index = s.register) : (s.resolve cfg).resolvedGiven p cfg := by
  refine ⟨?_, fun hp => State.resolve_resolved cfg s (h hp)⟩
  simp [State.resolve_resolver, State.resolve_time, State.resolve_programs]

theorem State.resolvedGiven_of_frame {ps : List Part} {t : State} (h : s.keepsAllBut ps t)
    (hps : ∀ x ∈ [Part.resolver, .programs, .time, .register], x ∉ ps) (hs : s.resolvedGiven p cfg) :
    t.resolvedGiven p cfg := by
  have hresolver : t.resolver = s.resolver := h .resolver (hps _ (by simp))
  have hprograms : t.programs = s.programs := h .programs (hps _ (by simp))
  have htime : t.time = s.time := h .time (hps _ (by simp))
  refine ⟨?_, fun hp => State.resolved_of_frame h hps (hs.2 hp)⟩
  rw [hresolver, hprograms, htime]
  exact hs.1

theorem State.expireAndResolve_resolvedGiven (h : p → s.resolver.index = s.register) :
    (s.expireAndResolve cfg).resolvedGiven p cfg :=
  State.resolve_resolvedGiven fun hp => by rw [s.expireWindows_index.1, s.expireWindows_index.2, h hp]

theorem State.resolverTimeState_resolvedGiven {before : TimeState} (h : p → s.resolver.index = s.register) :
    (s.resolverTimeState cfg before).resolvedGiven p cfg := by
  unfold State.resolverTimeState
  split_ifs
  · exact State.expireAndResolve_resolvedGiven h
  · exact State.resolve_resolvedGiven h

theorem State.activate_resolvedGiven {q : Program} (h : p → s.resolver.index = s.register) :
    (s.activate cfg [] q).resolvedGiven p cfg := by
  refine ⟨?_, fun hp => State.activate_resolved (h hp)⟩
  unfold State.activate
  refine State.inSomeOrder_makes (Q := fun _ => True)
    (P := fun t => t.resolver.band = bandNow t.programs.active t.time t.resolver.windows)
    [] [State.reportProgram cfg] (State.resolveAwaiting cfg []) (fun a ha t ht => ?_) (fun _ _ _ _ => trivial)
    (fun t _ => ?_) trivial
  · simp only [List.nil_append, List.mem_cons, List.not_mem_nil, or_false] at ha
    obtain rfl | rfl := ha
    · rw [State.resolveAwaiting_nil]
      exact (State.resolve_resolvedGiven (p := False) False.elim).1
    · exact (State.resolvedGiven_of_frame (p := False) (cfg := cfg) (t.reportProgram_frame cfg) (by decide)
        ⟨ht, False.elim⟩).1
  · rw [State.resolveAwaiting_nil]
    exact (State.resolve_resolvedGiven (p := False) False.elim).1

theorem State.examineProgram_resolvedGiven (hs : s.resolvedGiven p cfg) :
    (s.examineProgram cfg).resolvedGiven p cfg :=
  State.examineAwaiting_keeps (P := fun t => t.resolvedGiven p cfg) hs fun _ => State.activate_resolvedGiven hs.index

/-- A resolution reads of the Timekeeper its state, its clock and today's class (R109 to R114). -/
theorem resolvedBand_congr {q : Program} {t t' : Timekeeper} {windows : List (Option Window)}
    (hstate : t'.state = t.state) (hclock : t'.clock = t.clock) (htoday : t'.today = t.today) :
    resolvedBand q t' windows = resolvedBand q t windows := by
  unfold resolvedBand
  rw [hstate, hclock, htoday]

theorem State.setTime_resolvedGiven {t : Timekeeper} (hstate : t.state = s.time.state)
    (hclock : t.clock = s.time.clock) (htoday : t.today = s.time.today) (hs : s.resolvedGiven p cfg) :
    (s.setTime t).resolvedGiven p cfg := by
  have hband : ∀ q windows, resolvedBand q t windows = resolvedBand q s.time windows := fun _ _ =>
    resolvedBand_congr hstate hclock htoday
  have hnow : bandNow s.programs.active t s.resolver.windows = bandNow s.programs.active s.time s.resolver.windows := by
    simp only [bandNow, hband]
  refine ⟨hs.1.trans hnow.symm, fun hp => ?_⟩
  obtain ⟨-, hregister, hindex⟩ := hs.2 hp
  refine ⟨hs.1.trans hnow.symm, hregister.trans ?_, hindex⟩
  simp only [registerIndex, State.setTime_time, State.setTime_programs, State.setTime_resolver, hband, hstate]

theorem State.takeClasses_resolvedGiven {b : Beacon} (hs : s.resolvedGiven p cfg) :
    (s.takeClasses cfg b).resolvedGiven p cfg := by
  unfold State.takeClasses
  dsimp only
  split_ifs with htoday
  · exact State.setTime_resolvedGiven (s.time.takeClasses_state ..) (s.time.takeClasses_clock ..) htoday hs
  · exact State.resolve_resolvedGiven hs.index

theorem State.reportTimeInvalid_resolvedGiven (hs : s.resolvedGiven p cfg) :
    (s.reportTimeInvalid cfg).resolvedGiven p cfg :=
  State.resolvedGiven_of_frame (s.reportTimeInvalid_frame cfg) (by decide) hs

theorem State.reportStep_resolvedGiven (hs : s.resolvedGiven p cfg) : (s.reportStep cfg).resolvedGiven p cfg :=
  State.resolvedGiven_of_frame (s.reportStep_frame cfg) (by decide) hs

end
end Sys2Proof.Machine
end

section
/-! PROOF. What the Timekeeper's reports bring about, in whatever order the other blocks take them (sections 4.4 and
4.5). -/

namespace Sys2Proof.Machine

/-- What some event of a meeting settles, and the others leave alone or settle alike, is settled after the meeting;
where no event settles it, it stands. -/
theorem State.inSomeOrder_settles {β : Type} {s : State} {acts : List (State → State)} (f : State → β) (g : β → β)
    (c : Prop) [Decidable c] (R : State → Prop) (hR : ∀ act ∈ acts, ∀ t, R t → R (act t)) (hs : R s.met)
    (hidem : ∀ b, g (g b) = g b)
    (keep : ∀ act ∈ acts, ∀ t, R t → f (act t) = f t ∨ c ∧ f (act t) = g (f t))
    (does : c → ∃ act ∈ acts, ∀ t, R t → f (act t) = g (f t)) :
    f (s.inSomeOrder acts) = if c then g (f s.met) else f s.met := by
  by_cases hc : c
  · rw [if_pos hc]
    obtain ⟨act, hact, hdoes⟩ := does hc
    obtain ⟨pre, post, rfl⟩ := List.append_of_mem hact
    refine (State.inSomeOrder_makes (P := fun t => R t ∧ f t = g (f s.met))
      (Q := fun t => R t ∧ (f t = f s.met ∨ f t = g (f s.met))) pre post act
      (fun a ha t ⟨hr, ht⟩ => ⟨hR a ha t hr, ?_⟩) (fun a ha t ⟨hr, ht⟩ => ⟨hR a ha t hr, ?_⟩)
      (fun t ⟨hr, ht⟩ => ⟨hR act hact t hr, ?_⟩) ⟨hs, .inl rfl⟩).2
    · obtain h | ⟨-, h⟩ := keep a ha t hr
      · rw [h, ht]
      · rw [h, ht, hidem]
    · obtain h | ⟨-, h⟩ := keep a ha t hr
      · rwa [h]
      · exact .inr (by rw [h]; obtain ht | ht := ht <;> simp only [ht, hidem])
    · rw [hdoes t hr]
      obtain ht | ht := ht <;> simp only [ht, hidem]
  · rw [if_neg hc]
    exact (State.inSomeOrder_keeps (P := fun t => R t ∧ f t = f s.met)
      (fun a ha t ⟨hr, ht⟩ => ⟨hR a ha t hr, ((keep a ha t hr).resolve_right fun h => hc h.1).trans ht⟩) ⟨hs, rfl⟩).2

/-! ## The reports -/

/-- What the Timekeeper reports to the other blocks: `moves` says that the clock was set or stepped, `stepped` that it
was stepped, and `changed` that the time state is no longer `before` (R70). -/
inductive TimeReport (cfg : Configuration) (before : TimeState) (moves stepped changed : Prop) :
    (State → State) → Prop
  | expire (h : moves) : TimeReport cfg before moves stepped changed (State.expireAndResolve cfg)
  | examine (h : moves ∨ changed) : TimeReport cfg before moves stepped changed (State.examineProgram cfg)
  | step (h : stepped) : TimeReport cfg before moves stepped changed (State.reportStep cfg)
  | timeState (h : changed) : TimeReport cfg before moves stepped changed (State.resolverTimeState cfg before)
  | invalid (h : changed) : TimeReport cfg before moves stepped changed (State.reportTimeInvalid cfg)
  | classes (b : Beacon) : TimeReport cfg before moves stepped changed (State.takeClasses cfg b)

/-- The reports of a decision on a beacon. -/
theorem TimeReport.of_mem_beaconReports {cfg : Configuration} {b : Beacon} {d : Decision} {before after : TimeState}
    {act : State → State} (h : act ∈ beaconReports cfg b d before after) :
    TimeReport cfg before (d.movesClock = true) (d = .step) (after ≠ before) act := by
  rw [beaconReports_eq, List.mem_append, mem_earlierReports, List.mem_singleton] at h
  obtain (⟨hm, rfl | rfl⟩ | ⟨hd, rfl⟩ | ⟨hne, rfl | rfl | rfl⟩) | rfl := h
  exacts [.expire hm, .examine (.inl hm), .step hd, .timeState hne, .examine (.inr hne), .invalid hne, .classes b]

/-- The reports of a countdown that changed the time state. -/
theorem TimeReport.of_mem_countdown {cfg : Configuration} {before : TimeState} {act : State → State}
    (h : act ∈ [State.resolverTimeState cfg before, State.examineProgram cfg, State.reportTimeInvalid cfg]) :
    TimeReport cfg before False False True act := by
  simp only [List.mem_cons, List.not_mem_nil, or_false] at h
  obtain rfl | rfl | rfl := h
  exacts [.timeState trivial, .examine (.inr trivial), .invalid trivial]

/-- The time state and the clock are those of `x`. -/
def State.timedAs (x : Timekeeper) (t : State) : Prop := t.time.state = x.state ∧ t.time.clock = x.clock

theorem State.timedAs_of_time {x : Timekeeper} {s t : State} (h : t.time = s.time) (hs : s.timedAs x) : t.timedAs x := by
  rw [State.timedAs, h]
  exact hs

theorem Collector.examined_congr {t x : Timekeeper} (hstate : t.state = x.state) (hclock : t.clock = x.clock)
    (k : Collector) : k.examined t = k.examined x := by
  unfold Collector.examined
  rw [hstate, hclock]

/-- The windows left by an examination for expiry (R107). -/
def Timekeeper.expired (x : Timekeeper) (windows : List (Option Window)) : List (Option Window) :=
  if x.state.valid then freeExpired x.clock windows else windows

theorem Timekeeper.expired_expired (x : Timekeeper) (windows : List (Option Window)) :
    x.expired (x.expired windows) = x.expired windows := by
  unfold Timekeeper.expired
  split_ifs
  · exact freeExpired_freeExpired _ _
  · rfl

section
variable {cfg : Configuration} {before : TimeState} {moves stepped changed : Prop} {x : Timekeeper} {s t : State}
  {act : State → State}

theorem State.timedAs.expireAndResolve_windows (h : s.timedAs x) :
    (s.expireAndResolve cfg).resolver.windows = x.expired s.resolver.windows := by
  rw [State.expireAndResolve_windows, Timekeeper.expired, h.1, h.2]

namespace TimeReport

theorem frame (h : TimeReport cfg before moves stepped changed act) (s : State) :
    s.keepsAllBut [.meetings, .time, .programs, .resolver, .channels, .register, .monitor, .status] (act s) := by
  cases h with
  | expire => exact (s.expireAndResolve_frame cfg).mono (by decide)
  | examine => exact (s.examineProgram_frame cfg).mono (by decide)
  | step => exact (s.reportStep_frame cfg).mono (by decide)
  | timeState => exact (s.resolverTimeState_frame cfg before).mono (by decide)
  | invalid => exact (s.reportTimeInvalid_frame cfg).mono (by decide)
  | classes b => exact (s.takeClasses_frame cfg b).mono (by decide)

theorem timed (h : TimeReport cfg before moves stepped changed act) (hs : s.timedAs x) : (act s).timedAs x := by
  cases h with
  | expire => exact State.timedAs_of_time (s.expireAndResolve_frame cfg .time (by decide)) hs
  | examine => exact State.timedAs_of_time (s.examineProgram_frame cfg .time (by decide)) hs
  | step => exact State.timedAs_of_time (s.reportStep_frame cfg .time (by decide)) hs
  | timeState => exact State.timedAs_of_time (s.resolverTimeState_frame cfg before .time (by decide)) hs
  | invalid => exact State.timedAs_of_time (s.reportTimeInvalid_frame cfg .time (by decide)) hs
  | classes b =>
    rw [State.timedAs, State.takeClasses_time, Timekeeper.takeClasses_state, Timekeeper.takeClasses_clock]
    exact hs

theorem reports (h : TimeReport cfg before moves stepped changed act) (s : State) : s.reports (act s) := by
  cases h with
  | expire => exact s.expireAndResolve_reports cfg
  | examine => exact s.examineAwaiting_reports cfg []
  | step => exact s.reportStep_reports cfg
  | timeState => exact s.resolverTimeState_reports cfg before
  | invalid => exact s.reportTimeInvalid_reports cfg
  | classes b => exact s.takeClasses_reports cfg b

theorem resolvedGiven {p : Prop} (h : TimeReport cfg before moves stepped changed act) (hs : s.resolvedGiven p cfg) :
    (act s).resolvedGiven p cfg := by
  cases h with
  | expire => exact State.expireAndResolve_resolvedGiven hs.index
  | examine => exact State.examineProgram_resolvedGiven hs
  | step => exact State.reportStep_resolvedGiven hs
  | timeState => exact State.resolverTimeState_resolvedGiven hs.index
  | invalid => exact State.reportTimeInvalid_resolvedGiven hs
  | classes b => exact State.takeClasses_resolvedGiven hs

theorem index (h : TimeReport cfg before moves stepped changed act) (hs : s.resolver.index = s.register) :
    (act s).resolver.index = (act s).register := by
  have hof : ∀ {ps : List Part} {t : State}, s.keepsAllBut ps t → Part.resolver ∉ ps → Part.register ∉ ps →
      t.resolver.index = t.register := fun {ps t} hf hresolver hregister => by
    rw [(hf .resolver hresolver : t.resolver = s.resolver), (hf .register hregister : t.register = s.register)]
    exact hs
  cases h with
  | expire => exact (State.expireAndResolve_resolved hs).2.2
  | examine => exact State.examineAwaiting_index hs
  | step => exact hof (s.reportStep_frame cfg) (by decide) (by decide)
  | timeState => exact (State.resolverTimeState_resolvedGiven (p := True) fun _ => hs).index trivial
  | invalid => exact hof (s.reportTimeInvalid_frame cfg) (by decide) (by decide)
  | classes b =>
    unfold State.takeClasses
    dsimp only
    split_ifs
    · exact hs
    · exact State.resolveOver_index hs

theorem programs (h : TimeReport cfg before moves stepped changed act) (hs : s.timedAs x) :
    (act s).programs = s.programs ∨ (moves ∨ changed) ∧ (act s).programs = s.programs.examined x := by
  cases h with
  | expire => exact .inl (s.expireAndResolve_frame cfg .programs (by decide))
  | examine hc => exact .inr ⟨hc, (s.examineProgram_programs cfg).trans (Collector.examined_congr hs.1 hs.2 _)⟩
  | step => exact .inl (s.reportStep_frame cfg .programs (by decide))
  | timeState => exact .inl (s.resolverTimeState_frame cfg before .programs (by decide))
  | invalid => exact .inl (s.reportTimeInvalid_frame cfg .programs (by decide))
  | classes b => exact .inl (s.takeClasses_frame cfg b .programs (by decide))

theorem windows (h : TimeReport cfg before moves stepped changed act) (hs : s.timedAs x) :
    (act s).resolver.windows = s.resolver.windows ∨
      (moves ∨ changed ∧ before.valid = false ∧ x.state.valid = true) ∧
        (act s).resolver.windows = x.expired s.resolver.windows := by
  have hof : ∀ {ps : List Part} {t : State}, s.keepsAllBut ps t → Part.resolver ∉ ps →
      t.resolver.windows = s.resolver.windows := fun hf hresolver => congrArg Resolver.windows (hf .resolver hresolver)
  cases h with
  | expire hc => exact .inr ⟨.inl hc, hs.expireAndResolve_windows⟩
  | examine => exact .inl (s.examineProgram_windows cfg)
  | step => exact .inl (hof (s.reportStep_frame cfg) (by decide))
  | timeState hc =>
    unfold State.resolverTimeState
    split_ifs with hbecame
    · rw [Bool.and_eq_true, Bool.not_eq_true', hs.1] at hbecame
      exact .inr ⟨.inr ⟨hc, hbecame⟩, hs.expireAndResolve_windows⟩
    · exact .inl (s.resolve_windows cfg)
  | invalid => exact .inl (hof (s.reportTimeInvalid_frame cfg) (by decide))
  | classes b =>
    refine .inl ?_
    unfold State.takeClasses
    dsimp only
    split_ifs
    · rfl
    · exact State.resolve_windows cfg _

theorem examine_monitor : (s.examineProgram cfg).monitor = { s.monitor with
    conditions := { s.monitor.conditions with noProgram := (s.examineProgram cfg).monitor.conditions.noProgram } } := by
  obtain h | ⟨h, -⟩ := s.examineAwaiting_monitor cfg [] <;> rw [State.examineProgram, h]

theorem timeInvalid (h : TimeReport cfg before moves stepped changed act) (hs : s.timedAs x) :
    (act s).monitor.conditions.timeInvalid = s.monitor.conditions.timeInvalid ∨
      changed ∧ (act s).monitor.conditions.timeInvalid = !x.state.valid := by
  have hof : ∀ {ps : List Part} {t : State}, s.keepsAllBut ps t → Part.monitor ∉ ps →
      t.monitor.conditions.timeInvalid = s.monitor.conditions.timeInvalid := fun hf hm =>
    congrArg (fun m => m.conditions.timeInvalid) (hf .monitor hm)
  cases h with
  | expire => exact .inl (hof (s.expireAndResolve_frame cfg) (by decide))
  | examine => exact .inl (by rw [examine_monitor])
  | step => exact .inl (by rw [State.reportStep_monitor])
  | timeState => exact .inl (hof (s.resolverTimeState_frame cfg before) (by decide))
  | invalid hc => exact .inr ⟨hc, by rw [State.reportTimeInvalid_monitor, hs.1]⟩
  | classes b => exact .inl (hof (s.takeClasses_frame cfg b) (by decide))

/-- The step hold, with the mark of its tick, and TIME_STEP (R151). -/
def stepHold (s : State) : Nat × Bool × Bool :=
  (s.monitor.stepHold, s.monitor.stepHoldSet, s.monitor.conditions.timeStep)

theorem stepHold_kept (h : TimeReport cfg before moves stepped changed act) (s : State) :
    stepHold (act s) = stepHold s ∨ stepped ∧ stepHold (act s) = (300, true, true) := by
  have hof : ∀ {ps : List Part} {t : State}, s.keepsAllBut ps t → Part.monitor ∉ ps → stepHold t = stepHold s :=
    fun {ps t} hf hm => by rw [stepHold, (hf .monitor hm : t.monitor = s.monitor)]; rfl
  cases h with
  | expire => exact .inl (hof (s.expireAndResolve_frame cfg) (by decide))
  | examine => exact .inl (by rw [stepHold, examine_monitor]; rfl)
  | step hc => exact .inr ⟨hc, by rw [stepHold, State.reportStep_monitor]⟩
  | timeState => exact .inl (hof (s.resolverTimeState_frame cfg before) (by decide))
  | invalid => exact .inl (by rw [stepHold, State.reportTimeInvalid_monitor]; rfl)
  | classes b => exact .inl (hof (s.takeClasses_frame cfg b) (by decide))

end TimeReport
end

/-! ## The reports as one meeting -/

/-- The events of one instant are the Timekeeper's reports, and every report that is due is among them (R70). -/
structure TimeReports (cfg : Configuration) (before : TimeState) (moves stepped changed : Prop)
    (acts : List (State → State)) : Prop where
  all : ∀ act ∈ acts, TimeReport cfg before moves stepped changed act
  expire : moves → State.expireAndResolve cfg ∈ acts
  examine : moves ∨ changed → State.examineProgram cfg ∈ acts
  step : stepped → State.reportStep cfg ∈ acts
  timeState : changed → State.resolverTimeState cfg before ∈ acts
  invalid : changed → State.reportTimeInvalid cfg ∈ acts

theorem beaconReports_timeReports (cfg : Configuration) (b : Beacon) (d : Decision) (before after : TimeState) :
    TimeReports cfg before (d.movesClock = true) (d = .step) (after ≠ before) (beaconReports cfg b d before after) where
  all _ := .of_mem_beaconReports
  expire h := by rw [beaconReports_eq, List.mem_append, mem_earlierReports]; exact .inl (.inl ⟨h, .inl rfl⟩)
  examine h := by
    rw [beaconReports_eq, List.mem_append, mem_earlierReports]
    exact .inl (h.imp (fun h => ⟨h, .inr rfl⟩) fun h => .inr ⟨h, .inr (.inl rfl)⟩)
  step h := by rw [beaconReports_eq, List.mem_append, mem_earlierReports]; exact .inl (.inr (.inl ⟨h, rfl⟩))
  timeState h := by rw [beaconReports_eq, List.mem_append, mem_earlierReports]; exact .inl (.inr (.inr ⟨h, .inl rfl⟩))
  invalid h := by
    rw [beaconReports_eq, List.mem_append, mem_earlierReports]
    exact .inl (.inr (.inr ⟨h, .inr (.inr rfl)⟩))

theorem countdown_timeReports (cfg : Configuration) (before : TimeState) : TimeReports cfg before False False True
    [State.resolverTimeState cfg before, State.examineProgram cfg, State.reportTimeInvalid cfg] where
  all _ := .of_mem_countdown
  expire := False.elim
  examine _ := by simp
  step := False.elim
  timeState _ := by simp
  invalid _ := by simp

namespace TimeReports

section
variable {cfg : Configuration} {before : TimeState} {moves stepped changed : Prop} {acts : List (State → State)}
  {x : Timekeeper} {s : State}

theorem meeting_frame (h : TimeReports cfg before moves stepped changed acts) (s : State) :
    s.keepsAllBut [.meetings, .time, .programs, .resolver, .channels, .register, .monitor, .status]
      (s.inSomeOrder acts) :=
  State.inSomeOrder_frame (by decide) fun act hact => (h.all act hact).frame

theorem meeting_reports (h : TimeReports cfg before moves stepped changed acts) (s : State) :
    s.reports (s.inSomeOrder acts) := State.inSomeOrder_reports fun act hact => (h.all act hact).reports

theorem meeting_programs [Decidable moves] [Decidable changed]
    (h : TimeReports cfg before moves stepped changed acts) (hs : s.timedAs x) :
    (s.inSomeOrder acts).programs = if moves ∨ changed then s.programs.examined x else s.programs :=
  State.inSomeOrder_settles State.programs (Collector.examined x) _ (State.timedAs x)
    (fun act hact _ => (h.all act hact).timed) hs (Collector.examined_examined x)
    (fun act hact _ => (h.all act hact).programs) fun hc => ⟨_, h.examine hc, fun t ht =>
      (t.examineProgram_programs cfg).trans (Collector.examined_congr ht.1 ht.2 _)⟩

theorem meeting_windows [Decidable moves] [Decidable changed]
    (h : TimeReports cfg before moves stepped changed acts) (hs : s.timedAs x) :
    (s.inSomeOrder acts).resolver.windows =
      if moves ∨ changed ∧ before.valid = false ∧ x.state.valid = true then x.expired s.resolver.windows
      else s.resolver.windows := by
  refine State.inSomeOrder_settles (fun t => t.resolver.windows) x.expired _ (State.timedAs x)
    (fun act hact _ => (h.all act hact).timed) hs x.expired_expired (fun act hact _ => (h.all act hact).windows) ?_
  rintro (hc | ⟨hc, hbefore, hafter⟩)
  · exact ⟨_, h.expire hc, fun t ht => ht.expireAndResolve_windows⟩
  · refine ⟨_, h.timeState hc, fun t ht => ?_⟩
    rw [State.resolverTimeState, if_pos (by simp [hbefore, ht.1, hafter])]
    exact ht.expireAndResolve_windows

theorem meeting_timeInvalid [Decidable changed]
    (h : TimeReports cfg before moves stepped changed acts) (hs : s.timedAs x) :
    (s.inSomeOrder acts).monitor.conditions.timeInvalid =
      if changed then !x.state.valid else s.monitor.conditions.timeInvalid :=
  State.inSomeOrder_settles (fun t => t.monitor.conditions.timeInvalid) (fun _ => !x.state.valid) _ (State.timedAs x)
    (fun act hact _ => (h.all act hact).timed) hs (fun _ => rfl) (fun act hact _ => (h.all act hact).timeInvalid)
    fun hc => ⟨_, h.invalid hc, fun t ht => by rw [State.reportTimeInvalid_monitor, ht.1]⟩

theorem meeting_stepHold [Decidable stepped] (h : TimeReports cfg before moves stepped changed acts) (s : State) :
    TimeReport.stepHold (s.inSomeOrder acts) = if stepped then (300, true, true) else TimeReport.stepHold s :=
  State.inSomeOrder_settles TimeReport.stepHold (fun _ => (300, true, true)) _ (fun _ => True)
    (fun _ _ _ _ => trivial) trivial (fun _ => rfl) (fun act hact t _ => (h.all act hact).stepHold_kept t)
    fun hc => ⟨_, h.step hc, fun t _ => by rw [TimeReport.stepHold, State.reportStep_monitor]⟩

/-- A setting, a step and a change of time state are resolved (R116). -/
theorem meeting_resolvedGiven {p : Prop} (h : TimeReports cfg before moves stepped changed acts)
    (hc : moves ∨ changed) (hs : p → s.resolver.index = s.register) : (s.inSomeOrder acts).resolvedGiven p cfg := by
  have hmakes : ∃ act ∈ acts, ∀ t : State, (p → t.resolver.index = t.register) → (act t).resolvedGiven p cfg := by
    obtain hc | hc := hc
    · exact ⟨_, h.expire hc, fun t ht => State.expireAndResolve_resolvedGiven ht⟩
    · exact ⟨_, h.timeState hc, fun t ht => State.resolverTimeState_resolvedGiven ht⟩
  obtain ⟨act, hact, hmakes⟩ := hmakes
  obtain ⟨pre, post, rfl⟩ := List.append_of_mem hact
  exact State.inSomeOrder_makes pre post act (fun a ha t ht => (h.all a ha).resolvedGiven ht)
    (fun a ha t ht hp => (h.all a ha).index (ht hp)) hmakes hs

end
end TimeReports
end Sys2Proof.Machine
end

section
/-! PROOF. The hold and lost countdowns (sections 4.3 and 4.4). -/

namespace Sys2Proof.Machine

/-- Where change pending is set already, a further note changes nothing. -/
theorem StatusPort.eq_of_pending {a b : StatusPort} (h : a.mayNote b) (ha : a.changePending = true) : b = a := by
  obtain ⟨hemission, hperiodic, hpending⟩ := h
  cases a
  cases b
  simp_all

section
variable {s : State} {f : Timekeeper → Timekeeper}

theorem State.timeCountdown_of_unconfigured (h : s.loader.load = .unconfigured) : s.timeCountdown f = s := by
  rw [State.timeCountdown, h]

theorem State.timeCountdown_of_same (h : s.loader.load ≠ .unconfigured) (hsame : (f s.time).state = s.time.state) :
    s.timeCountdown f = s.setTime (f s.time) := by
  unfold State.timeCountdown
  split
  next hl => exact absurd hl h
  next => exact if_pos hsame
  next cfg => exact if_pos hsame

theorem State.timeCountdown_of_loading (h : s.loader.load = .loading) (hne : (f s.time).state ≠ s.time.state) :
    s.timeCountdown f = (s.setTime (f s.time)).noteChange := by
  rw [State.timeCountdown, h]
  exact if_neg hne

/-- A changed time state is noted, and reported to the resolver, the collector and the monitor (R69, R70). -/
theorem State.timeCountdown_of_configured {cfg : Configuration} (h : s.loader.load = .configured cfg)
    (hne : (f s.time).state ≠ s.time.state) : s.timeCountdown f =
      (s.setTime (f s.time)).noteChange.inSomeOrder
        [State.resolverTimeState cfg s.time.state, State.examineProgram cfg, State.reportTimeInvalid cfg] := by
  rw [State.timeCountdown, h]
  exact if_neg hne

/-- A changed time state notes a change, and whatever the reports of it note besides is that too (R198). -/
theorem State.timeCountdown_status (h : s.loader.load ≠ .unconfigured) (hne : (f s.time).state ≠ s.time.state) :
    (s.timeCountdown f).status = { s.status with changePending := true } := by
  cases hl : s.loader.load with
  | unconfigured => exact absurd hl h
  | loading => rw [State.timeCountdown_of_loading hl hne]; rfl
  | configured cfg =>
    rw [State.timeCountdown_of_configured hl hne]
    exact StatusPort.eq_of_pending
      ((countdown_timeReports cfg s.time.state).meeting_reports (s.setTime (f s.time)).noteChange).noted rfl

/-- A countdown whose end does not make the time state valid. -/
theorem State.timeCountdown_spec (hvalid : (f s.time).state.valid = true → s.time.state.valid = true) :
    (s.loader.load = .unconfigured → s.timeCountdown f = s) ∧
    (s.loader.load ≠ .unconfigured → (s.timeCountdown f).time = f s.time ∧
      ((f s.time).state = s.time.state → s.keepsAllBut [.time] (s.timeCountdown f)) ∧
      ((f s.time).state ≠ s.time.state → (s.timeCountdown f).status = { s.status with changePending := true } ∧
        (s.loader.load = .loading → s.keepsAllBut [.time, .status] (s.timeCountdown f)) ∧
        s.keepsAllBut [.meetings, .time, .programs, .resolver, .channels, .register, .monitor, .status]
          (s.timeCountdown f) ∧
        ∀ cfg, s.loader.load = .configured cfg →
          (s.timeCountdown f).monitor.conditions.timeInvalid = !(f s.time).state.valid ∧
          (s.timeCountdown f).programs = s.programs.examined (f s.time) ∧
          (s.timeCountdown f).resolver.windows = s.resolver.windows ∧
          (s.timeCountdown f).resolvedGiven (s.resolver.index = s.register) cfg)) := by
  refine ⟨State.timeCountdown_of_unconfigured, fun h => ⟨(State.timeCountdown_time f s).trans (if_neg h),
    fun hsame => ?_, fun hne => ⟨State.timeCountdown_status h hne, fun hl => ?_, s.timeCountdown_frame f,
      fun cfg hl => ?_⟩⟩⟩
  · rw [State.timeCountdown_of_same h hsame]
    exact s.setTime_frame _
  · rw [State.timeCountdown_of_loading hl hne]
    exact ((s.setTime_frame _).mono (by decide)).trans ((State.noteChange_frame _).mono (by decide))
  · have hreports := countdown_timeReports cfg s.time.state
    have htimed : ((s.setTime (f s.time)).noteChange).timedAs (f s.time) := ⟨rfl, rfl⟩
    rw [State.timeCountdown_of_configured hl hne]
    refine ⟨(hreports.meeting_timeInvalid htimed).trans (if_pos trivial),
      (hreports.meeting_programs htimed).trans (if_pos (.inr trivial)),
      (hreports.meeting_windows htimed).trans (if_neg ?_), hreports.meeting_resolvedGiven (.inr trivial) id⟩
    rintro (hfalse | ⟨-, hinvalid, hnow⟩)
    · exact hfalse
    · rw [hvalid hnow] at hinvalid
      cases hinvalid

end

/-- Settles O30, by what the Timekeeper's reports bring about in any order. -/
theorem timeCountdownsRunDown : Obligations.TimeCountdownsRunDown := by
  intro s cmd f hrun hcmd
  have hf : s.after cmd = s.timeCountdown f ∧ ((f s.time).state.valid = true → s.time.state.valid = true) := by
    obtain ⟨rfl, rfl⟩ | ⟨rfl, rfl⟩ := hcmd
    · refine ⟨?_, ?_⟩
      · rw [State.after_holdCountdownExpiry, State.whenRunning_eq hrun]
        exact congrArg s.timeCountdown (funext Timekeeper.holdTick_eq)
      · dsimp only
        split_ifs with h
        · exact fun _ => by rw [h.2]; rfl
        · exact id
    · refine ⟨?_, ?_⟩
      · rw [State.after_lostCountdownExpiry, State.whenRunning_eq hrun]
        exact congrArg s.timeCountdown (funext Timekeeper.lostTick_eq)
      · dsimp only
        split_ifs with h
        · exact fun _ => h.2
        · exact id
  obtain ⟨hafter, hvalid⟩ := hf
  obtain ⟨hrests, hruns⟩ := State.timeCountdown_spec hvalid
  rw [exec_eq_next, hafter]
  refine ⟨fun h => by rw [hrests h], fun h => ⟨_, rfl, ?_⟩⟩
  obtain ⟨htime, hsame, hchanged⟩ := hruns h
  refine ⟨htime, fun heq => hsame (by rwa [htime] at heq), fun hne => ?_⟩
  obtain ⟨hstatus, hloading, hframe, hconfigured⟩ := hchanged (by rwa [htime] at hne)
  refine ⟨hstatus, hloading, hframe, fun cfg hl => ?_⟩
  obtain ⟨hinvalid, hprograms, hwindows, hband, hresolved⟩ := hconfigured cfg hl
  refine ⟨by rw [htime]; exact hinvalid, by rw [htime]; exact hprograms, hwindows, hband,
    fun hindex => (hresolved hindex).2.1⟩

end Sys2Proof.Machine
end

section
/-! PROOF. An accepted beacon in every block (sections 2.4, 4.4 and 4.5). -/

namespace Sys2Proof.Machine

/-! ## The decision -/

theorem Decision.movesClock_iff {d : Decision} : d.movesClock = true ↔ d = .firstSetting ∨ d = .step := by
  cases d <;> simp [Decision.movesClock]

section
variable {cfg : Configuration} {now : Nat} {t : Timekeeper} {e : Moment} {d : Decision}

/-- A setting and a step leave the part SYNCED (R73, R75). -/
theorem Timekeeper.obey_valid (h : d.movesClock = true) : (t.obey cfg now e d).state.valid = true := by
  rw [Timekeeper.obey_setting (Decision.movesClock_iff.1 h)]
  rfl

/-- No decision of itself changes today's class (R77). -/
theorem Timekeeper.obey_today : (t.obey cfg now e d).today = t.today := by
  cases d <;> rfl

end

section
variable (cfg : Configuration) (e : Moment) (d : Decision) (s : State)

theorem State.decided_counters : (s.decided cfg e d).counters = (s.countDecision d).counters := by
  unfold State.decided
  dsimp only
  split_ifs <;> cases d <;> rfl

theorem State.countDecision_timeRejected : (s.countDecision d).counters.timeRejected = s.counters.timeRejected := by
  cases d <;> rfl

theorem State.countDecision_timeAccepted : (s.countDecision d).counters.timeAccepted =
    if d = .holdCandidate then s.counters.timeAccepted else saturate s.counters.timeAccepted 1 := by
  cases d <;> rfl

theorem State.countDecision_steps : (s.countDecision d).counters.steps =
    if d = .step then saturate s.counters.steps 1 else s.counters.steps := by
  cases d <;> rfl

/-- A decision that changes the time state notes a change (R198). -/
theorem State.decided_noted : s.reports (s.decided cfg e d) ∧
    ((s.time.obey cfg s.elapsed e d).state ≠ s.time.state → (s.decided cfg e d).status.changePending = true) := by
  have hcounted : s.reports ((s.setTime (s.time.obey cfg s.elapsed e d)).countDecision d) :=
    (State.reports_of_frame (s.setTime_frame _) (by decide)).trans
      (State.reports_of_frame (State.countDecision_frame d _) (by decide))
  unfold State.decided
  dsimp only
  rw [State.countDecision_time, State.setTime_time]
  split_ifs with h
  · exact ⟨hcounted, absurd h⟩
  · exact ⟨hcounted.trans (State.reports_of_noted rfl), fun _ => rfl⟩

end

/-! ## The reports of a valid beacon -/

section
variable {cfg : Configuration} {b : Beacon} {s : State}

theorem State.inSomeOrder_singleton (act : State → State) : s.inSomeOrder [act] = act s.met := by
  rw [State.inSomeOrder, List.perm_singleton.1 (arrange_perm s.meeting [act])]
  rfl

theorem State.takeClasses_resolvedGiven_of_changed {p : Prop} (h : p → s.resolver.index = s.register)
    (hne : (s.time.takeClasses b).today ≠ s.time.today) : (s.takeClasses cfg b).resolvedGiven p cfg := by
  rw [State.takeClasses, State.setTime_time, if_neg hne]
  exact State.resolve_resolvedGiven h

/-- A setting, a step, a change of time state and one of today's class are resolved (R70, R78, R116). -/
theorem State.beacon_resolvedGiven {p : Prop} {d : Decision} {before after : TimeState}
    (h : p → s.resolver.index = s.register)
    (hc : d.movesClock = true ∨ after ≠ before ∨ (s.time.takeClasses b).today ≠ s.time.today) :
    (s.inSomeOrder (beaconReports cfg b d before after)).resolvedGiven p cfg := by
  by_cases hreports : d.movesClock = true ∨ after ≠ before
  · exact (beaconReports_timeReports cfg b d before after).meeting_resolvedGiven hreports h
  · rw [not_or, not_not] at hreports
    obtain ⟨hstill, rfl⟩ := hreports
    have hnone : beaconReports cfg b d after after = [State.takeClasses cfg b] := by
      cases d <;> simp_all [beaconReports, Decision.movesClock]
    rw [hnone, State.inSomeOrder_singleton]
    exact State.takeClasses_resolvedGiven_of_changed h ((hc.resolve_left hstill).resolve_left (absurd rfl))

end

/-- What a valid beacon does, `y` being the Timekeeper after the decision `d`. -/
theorem State.beacon_spec {cfg : Configuration} {b : Beacon} {age : Nat} {s : State} {d : Decision} {y : Timekeeper}
    (hvalid : beaconValid cfg b age = true) (hd : s.time.judge cfg s.elapsed (b.estimate age) = d)
    (hy : s.time.obey cfg s.elapsed (b.estimate age) d = y) :
    s.reports (s.beacon cfg b age) ∧
    (y.state ≠ s.time.state → (s.beacon cfg b age).status.changePending = true) ∧
    (s.beacon cfg b age).counters = (s.countDecision d).counters ∧
    TimeReport.stepHold (s.beacon cfg b age) = (if d = .step then (300, true, true) else TimeReport.stepHold s) ∧
    (s.beacon cfg b age).monitor.conditions.timeInvalid =
      (if y.state ≠ s.time.state then !y.state.valid else s.monitor.conditions.timeInvalid) ∧
    (s.beacon cfg b age).resolver.windows =
      (if d.movesClock = true ∨ y.state ≠ s.time.state ∧ s.time.state.valid = false ∧ y.state.valid = true then
        y.expired s.resolver.windows else s.resolver.windows) ∧
    (s.beacon cfg b age).programs =
      (if d.movesClock = true ∨ y.state ≠ s.time.state then s.programs.examined y else s.programs) ∧
    (d.movesClock = true ∨ y.state ≠ s.time.state ∨ (y.takeClasses b).today ≠ s.time.today →
      (s.beacon cfg b age).resolvedGiven (s.resolver.index = s.register) cfg) := by
  rw [State.beacon_of_valid hvalid, hd, hy]
  have hreports := beaconReports_timeReports cfg b d s.time.state y.state
  have hframe := s.decided_frame cfg (b.estimate age) d
  have hmonitor : (s.decided cfg (b.estimate age) d).monitor = s.monitor := hframe .monitor (by decide)
  have hresolver : (s.decided cfg (b.estimate age) d).resolver = s.resolver := hframe .resolver (by decide)
  have hprograms : (s.decided cfg (b.estimate age) d).programs = s.programs := hframe .programs (by decide)
  have hregister : (s.decided cfg (b.estimate age) d).register = s.register := hframe .register (by decide)
  have htime : (s.decided cfg (b.estimate age) d).time = y := (s.decided_time cfg (b.estimate age) d).trans hy
  have htimed : (s.decided cfg (b.estimate age) d).timedAs y := by rw [State.timedAs, htime]; exact ⟨rfl, rfl⟩
  have hmeeting := hreports.meeting_reports (s.decided cfg (b.estimate age) d)
  obtain ⟨hdecided, hpending⟩ := s.decided_noted cfg (b.estimate age) d
  refine ⟨hdecided.trans hmeeting, fun hne => hmeeting.noted.2.2 (hpending (by rwa [hy])), ?_, ?_, ?_, ?_, ?_,
    fun hc => ?_⟩
  · rw [← s.decided_counters cfg (b.estimate age) d]
    exact hreports.meeting_frame _ .counters (by decide)
  · rw [hreports.meeting_stepHold, TimeReport.stepHold, hmonitor]
    rfl
  · rw [hreports.meeting_timeInvalid htimed, hmonitor]
  · rw [hreports.meeting_windows htimed, hresolver]
  · rw [hreports.meeting_programs htimed, hprograms]
  · have htoday : y.today = s.time.today := by rw [← hy, Timekeeper.obey_today]
    rw [← hresolver, ← hregister]
    refine State.beacon_resolvedGiven id (hc.imp_right fun hc => hc.imp_right fun hne => ?_)
    rwa [htime, htoday]

/-! ## Its acceptance -/

section
variable {s t : State}

theorem State.aside.reports (h : s.aside t) : s.reports t where
  noted := h.noted
  told hne := by
    have hprograms : t.programs = s.programs := h.frame .programs (by decide)
    exact hne.elim (absurd hprograms) h.changed

theorem State.aside.stepHold (h : s.aside t) : TimeReport.stepHold t = TimeReport.stepHold s := by
  rw [TimeReport.stepHold, h.monitor]
  rfl

theorem State.aside.timeInvalid (h : s.aside t) :
    t.monitor.conditions.timeInvalid = s.monitor.conditions.timeInvalid := by
  rw [h.monitor]

theorem State.aside.resolvedGiven {p : Prop} {cfg : Configuration} (h : s.aside t) (hs : s.resolvedGiven p cfg) :
    t.resolvedGiven p cfg := State.resolvedGiven_of_frame h.frame (by decide) hs

end

theorem beaconValid_iff {cfg : Configuration} {b : Beacon} {age : Nat} :
    beaconValid cfg b age = true ↔ age < cfg.beaconMaxAge ∧ b.at_.tick < 8640000 := by
  rw [beaconValid, Bool.and_eq_true, decide_eq_true_iff, decide_eq_true_iff]
  rfl

theorem State.route_of_beacon {s : State} {cfg : Configuration} {bytes : List Byte} (hkind : kindOf bytes = 1) :
    s.route cfg bytes = s.beacon cfg (beaconOf (payloadOf bytes)) (ageOf bytes) := by
  rw [State.route, if_pos hkind]

/-- Settles O32: what a valid beacon does where it is routed, whatever the acceptance does beside. -/
theorem acceptedBeaconReachesTheTimekeeper : Obligations.AcceptedBeaconReachesTheTimekeeper := by
  intro s cfg bytes levels hrun hend h hkind b valid d
  obtain ⟨u, hbefore, hafter⟩ := State.reception_routed hrun hend h levels
  rw [State.route_of_beacon hkind] at hafter
  have htimeU : u.time = s.time := hbefore.frame .time (by decide)
  have helapsedU : u.elapsed = s.elapsed := hbefore.frame .elapsed (by decide)
  refine ⟨_, exec_eq_next _ s, fun hinvalid => ?_, fun hvalid => ?_⟩
  · rw [State.beacon_of_invalid (Bool.eq_false_iff.2 fun hv => hinvalid (beaconValid_iff.1 hv))] at hafter
    refine ⟨?_, ?_, ?_, ?_⟩
    · exact (hafter.count Counters.timeRejected fun _ _ _ => rfl).trans
        (congrArg (saturate · 1) (hbefore.count Counters.timeRejected fun _ _ _ => rfl))
    · exact (hafter.count Counters.timeAccepted fun _ _ _ => rfl).trans
        (hbefore.count Counters.timeAccepted fun _ _ _ => rfl)
    · exact (hafter.count Counters.steps fun _ _ _ => rfl).trans (hbefore.count Counters.steps fun _ _ _ => rfl)
    · exact (s.endReception_frame.mono (by decide)).trans ((hbefore.frame.mono (by decide)).trans
        (((State.count_frame _ u).mono (by decide)).trans (hafter.frame.mono (by decide))))
  · generalize hy : s.time.obey cfg s.elapsed (b.estimate (ageOf bytes)) d = y
    obtain ⟨hreports, hnoted, hcounters, hstep, hinvalid, hwindows, hprograms, hresolved⟩ :=
      State.beacon_spec (s := u) (d := d) (y := y) (beaconValid_iff.2 hvalid) (by rw [htimeU, helapsedU])
        (by rw [htimeU, helapsedU, hy])
    have htime : (s.after (.receptionEnd bytes levels)).time = y.takeClasses b := by
      rw [hafter.frame .time (by decide), State.beacon_time (beaconValid_iff.2 hvalid), htimeU, helapsedU, ← hy]
    have hstate : (s.after (.receptionEnd bytes levels)).time.state = y.state := by
      rw [htime, Timekeeper.takeClasses_state]
    have hclock : (s.after (.receptionEnd bytes levels)).time.clock = y.clock := by
      rw [htime, Timekeeper.takeClasses_clock]
    have hmoved : d.movesClock = true → y.state.valid = true := fun hm => by rw [← hy, Timekeeper.obey_valid hm]
    have hresolverU : u.resolver = s.resolver := hbefore.frame .resolver (by decide)
    have hprogramsU : u.programs = s.programs := hbefore.frame .programs (by decide)
    have hregisterU : u.register = s.register := hbefore.frame .register (by decide)
    have hall := hbefore.reports.trans (hreports.trans hafter.reports)
    have hold := hafter.stepHold.trans (hstep.trans (by rw [hbefore.stepHold]))
    rw [htimeU] at hinvalid hwindows hprograms hresolved hnoted
    refine ⟨htime, hall.noted, fun hc => ?_, ?_, ?_, ?_, (congrArg Prod.fst hold).trans (apply_ite Prod.fst _ _ _),
      (congrArg (fun x => x.2.1) hold).trans (apply_ite (fun x : Nat × Bool × Bool => x.2.1) _ _ _),
      (congrArg (fun x => x.2.2) hold).trans (apply_ite (fun x : Nat × Bool × Bool => x.2.2) _ _ _), ?_, ?_, ?_,
      fun hc => ?_⟩
    · rw [hstate] at hc
      exact hc.elim (fun hne => hafter.noted.2.2 (hnoted hne)) hall.told
    · rw [hafter.count Counters.timeRejected fun _ _ _ => rfl, hcounters, State.countDecision_timeRejected]
      exact hbefore.count Counters.timeRejected fun _ _ _ => rfl
    · rw [hafter.count Counters.timeAccepted fun _ _ _ => rfl, hcounters, State.countDecision_timeAccepted,
        hbefore.count Counters.timeAccepted fun _ _ _ => rfl]
      rfl
    · rw [hafter.count Counters.steps fun _ _ _ => rfl, hcounters, State.countDecision_steps,
        hbefore.count Counters.steps fun _ _ _ => rfl]
      rfl
    · rw [hafter.timeInvalid, hinvalid, hstate, ite_not, hbefore.timeInvalid]
      rfl
    · have hwindowsT : (s.after (.receptionEnd bytes levels)).resolver.windows =
          (u.beacon cfg b (ageOf bytes)).resolver.windows :=
        congrArg Resolver.windows (hafter.frame .resolver (by decide))
      rw [hwindowsT, hwindows, hresolverU, hstate, hclock]
      have hcause : (d.movesClock = true ∨ y.state ≠ s.time.state ∧ s.time.state.valid = false ∧ y.state.valid = true) ↔
          d = .firstSetting ∨ d = .step ∨ s.time.state.valid = false ∧ y.state.valid = true := by
        rw [Decision.movesClock_iff, or_assoc]
        refine or_congr_right (or_congr_right ⟨And.right, fun hv => ⟨fun heq => ?_, hv⟩⟩)
        rw [heq, hv.1] at hv
        exact Bool.false_ne_true hv.2
      refine Eq.trans ?_ (if_congr hcause rfl rfl)
      split_ifs with hc
      · exact if_pos (hc.elim hmoved fun h => h.2.2)
      · rfl
    · rw [(hafter.frame .programs (by decide) : (s.after (.receptionEnd bytes levels)).programs =
        (u.beacon cfg b (ageOf bytes)).programs), hprograms, hprogramsU, hstate,
        Collector.examined_congr hstate hclock]
      exact if_congr (by rw [Decision.movesClock_iff, or_assoc]) rfl rfl
    · rw [hstate, htime, ← or_assoc, ← Decision.movesClock_iff] at hc
      obtain ⟨hband, hregister⟩ := hafter.resolvedGiven (hresolved hc)
      rw [hresolverU, hregisterU] at hregister
      exact ⟨hband, fun hindex => (hregister hindex).2.1⟩

end Sys2Proof.Machine
end

section
/-! PROOF. Accepted window orders (section 6.2). -/

namespace Sys2Proof.Machine

/-! ## The tests of a window order -/

theorem Window.supersedes_iff {w : Window} {origin : Byte} {serial : Word} :
    w.supersedes origin serial = true ↔ w.setOrigin = origin ∧ newer w.setSerial serial = true := by
  rw [Window.supersedes, Bool.and_eq_true, decide_eq_true_iff]

theorem windowIn_eq_some {windows : List (Option Window)} {slot : Nat} {w : Window} :
    windowIn windows slot = some w ↔ windows[slot]? = some (some w) := by
  rw [windowIn, List.getD_eq_getElem?_getD]
  cases windows[slot]? <;> simp

theorem slotSupersedes_iff {windows : List (Option Window)} {slot : Nat} {origin : Byte} {serial : Word} :
    slotSupersedes windows slot origin serial = true ↔
      ∃ w, windows[slot]? = some (some w) ∧ w.setOrigin = origin ∧ newer w.setSerial serial = true := by
  simp only [slotSupersedes, Option.any_eq_true, windowIn_eq_some, Window.supersedes_iff]

/-- One minute is before another by the signed difference of their days, and within a day by the minute (R103). -/
theorem Minute.before_iff {a b : Minute} :
    a.before b = true ↔ 0 < (b.day - a.day).toInt ∨ a.day = b.day ∧ a.minute < b.minute := by
  have hzero : dayDiff b.day a.day = 0 ↔ a.day = b.day := by
    rw [dayDiff, ← BitVec.toInt_zero (w := 16), BitVec.toInt_inj, BitVec.sub_eq_iff_eq_add, BitVec.zero_add, eq_comm]
  rw [Minute.before, decide_eq_true_iff, hzero]
  rfl

theorem getElem?_clearAll {windows : List (Option Window)} {origin : Byte} {serial : Word} {i : Nat} {w : Window} :
    (clearAll origin serial windows)[i]? = some (some w) ↔
      windows[i]? = some (some w) ∧ w.setOrigin = origin ∧ newer w.setSerial serial = true := by
  rw [clearAll, List.getElem?_map, ← Window.supersedes_iff]
  rcases windows[i]? with _ | _ | v
  · simp
  · simp
  · by_cases h : v.supersedes origin serial = true
    · simp only [Option.map_some, if_pos h, Option.some.injEq]
      exact ⟨fun heq => ⟨heq, heq ▸ h⟩, And.left⟩
    · simp only [Option.map_some, if_neg h, Option.some.injEq, reduceCtorEq, false_iff]
      rintro ⟨rfl, hw⟩
      exact h hw

/-! ## The orders -/

section
variable {cfg : Configuration} {s : State} {origin : Byte} {serial : Word} {slot : Nat}

theorem State.setWindow_of_refused {start stop : Minute} {band : Nat} {mode : WindowMode}
    (h : 23 < slot ∨ start.before stop = false ∨ slotSupersedes s.resolver.windows slot origin serial = true) :
    s.setWindow cfg origin serial slot start stop band mode = s.count .ordersRefused := by
  unfold State.setWindow
  split_ifs with hslot hbefore hheld
  · rfl
  · rfl
  · rfl
  · rw [Bool.not_eq_true, Bool.not_eq_false'] at hbefore
    exact absurd (h.resolve_left hslot) (not_or.2 ⟨by simp [hbefore], hheld⟩)

theorem State.setWindow_of_taken {start stop : Minute} {band : Nat} {mode : WindowMode} (hslot : slot ≤ 23)
    (hbefore : start.before stop = true) (hheld : slotSupersedes s.resolver.windows slot origin serial ≠ true) :
    s.setWindow cfg origin serial slot start stop band mode =
      ((s.writeWindows (s.resolver.windows.set slot (some ⟨start, stop, band, mode, origin, serial⟩))).count
        .ordersApplied).expireAndResolve cfg := by
  rw [State.setWindow, if_neg (by omega), if_neg (by simp [hbefore]), if_neg hheld]

theorem State.clearWindow_of_refused
    (h : 23 < slot ∧ slot ≠ 255 ∨ slot ≤ 23 ∧ slotSupersedes s.resolver.windows slot origin serial = true) :
    s.clearWindow cfg origin serial slot = s.count .ordersRefused := by
  unfold State.clearWindow
  obtain ⟨hslot, hnot⟩ | ⟨hslot, hheld⟩ := h
  · rw [if_neg (by omega), if_neg hnot]
  · rw [if_pos hslot, if_pos hheld]

theorem State.clearWindow_of_free (hslot : slot ≤ 23)
    (hheld : slotSupersedes s.resolver.windows slot origin serial ≠ true)
    (hfree : s.resolver.windows[slot]? = some none) :
    s.clearWindow cfg origin serial slot = s.count .ordersApplied := by
  rw [State.clearWindow, if_pos hslot, if_neg hheld, if_pos]
  rw [windowIn, List.getD_eq_getElem?_getD, hfree]
  rfl

theorem State.clearWindow_of_taken (hslot : slot ≤ 23)
    (hheld : slotSupersedes s.resolver.windows slot origin serial ≠ true) {w : Window}
    (hw : s.resolver.windows[slot]? = some (some w)) : s.clearWindow cfg origin serial slot =
      ((s.writeWindows (s.resolver.windows.set slot none)).count .ordersApplied).resolve cfg := by
  rw [State.clearWindow, if_pos hslot, if_neg hheld, if_neg]
  rw [windowIn_eq_some.2 hw]
  exact Bool.false_ne_true

theorem State.clearWindow_all : s.clearWindow cfg origin serial 255 =
    if clearAll origin serial s.resolver.windows = s.resolver.windows then s.count .ordersApplied
    else ((s.writeWindows (clearAll origin serial s.resolver.windows)).count .ordersApplied).resolve cfg := rfl

end

/-! ## What an order leaves -/

/-- A window order refused: it is counted so, and the resolver is as before (R104, R106). -/
def State.refusesWindow (s t : State) : Prop :=
  t.resolver = s.resolver ∧ t.register = s.register ∧
  t.counters.ordersRefused = saturate s.counters.ordersRefused 1 ∧ t.counters.ordersApplied = s.counters.ordersApplied

/-- A window order counted as applied. -/
def State.countsWindow (s t : State) : Prop :=
  t.counters.ordersRefused = s.counters.ordersRefused ∧ t.counters.ordersApplied = saturate s.counters.ordersApplied 1

/-- The band and the register index are those of the windows left behind (R116). -/
def State.resolvesWindows (s : State) (cfg : Configuration) (t : State) : Prop :=
  t.resolver.band = bandNow s.programs.active s.time t.resolver.windows ∧
  (s.resolver.index = s.register → t.register = registerIndex cfg s.programs.active s.time t.resolver.windows)

section
variable {cfg : Configuration} {s t u v : State}

theorem State.refusesWindow_count (s : State) : s.refusesWindow (s.count .ordersRefused) := ⟨rfl, rfl, rfl, rfl⟩

theorem State.countsWindow_count (s : State) : s.countsWindow (s.count .ordersApplied) := ⟨rfl, rfl⟩

theorem State.countsWindow_of_frame {ps : List Part} {ws : List (Option Window)}
    (h : ((s.writeWindows ws).count .ordersApplied).keepsAllBut ps t) (hps : Part.counters ∉ ps) :
    s.countsWindow t := by
  rw [State.countsWindow, (h .counters hps : t.counters = ((s.writeWindows ws).count .ordersApplied).counters)]
  exact ⟨rfl, rfl⟩

theorem State.resolvesWindows_of_given (h : t.resolvedGiven (s.resolver.index = s.register) cfg)
    (htime : t.time = s.time) (hprograms : t.programs = s.programs) : s.resolvesWindows cfg t := by
  obtain ⟨hband, hresolved⟩ := h
  rw [State.resolvesWindows, ← htime, ← hprograms]
  exact ⟨hband, fun hindex => (hresolved hindex).2.1⟩

/-- The other actions of the acceptance do not show in what the order leaves. -/
theorem State.refusesWindow.between (hbefore : s.endReception.aside u) (hv : u.refusesWindow v) (hafter : v.aside t) :
    s.refusesWindow t := by
  obtain ⟨hresolver, hregister, hrefused, happlied⟩ := hv
  refine ⟨(hafter.frame .resolver (by decide)).trans (hresolver.trans (hbefore.frame .resolver (by decide))),
    (hafter.frame .register (by decide)).trans (hregister.trans (hbefore.frame .register (by decide))), ?_, ?_⟩
  · rw [hafter.count Counters.ordersRefused fun _ _ _ => rfl, hrefused,
      hbefore.count Counters.ordersRefused fun _ _ _ => rfl]
    rfl
  · rw [hafter.count Counters.ordersApplied fun _ _ _ => rfl, happlied,
      hbefore.count Counters.ordersApplied fun _ _ _ => rfl]
    rfl

theorem State.countsWindow.between (hbefore : s.endReception.aside u) (hv : u.countsWindow v) (hafter : v.aside t) :
    s.countsWindow t := by
  obtain ⟨hrefused, happlied⟩ := hv
  constructor
  · rw [hafter.count Counters.ordersRefused fun _ _ _ => rfl, hrefused,
      hbefore.count Counters.ordersRefused fun _ _ _ => rfl]
    rfl
  · rw [hafter.count Counters.ordersApplied fun _ _ _ => rfl, happlied,
      hbefore.count Counters.ordersApplied fun _ _ _ => rfl]
    rfl

theorem State.resolvesWindows.between (hbefore : s.endReception.aside u) (hv : u.resolvesWindows cfg v)
    (hafter : v.aside t) : s.resolvesWindows cfg t := by
  have hresolver : u.resolver = s.resolver := hbefore.frame .resolver (by decide)
  have hregister : u.register = s.register := hbefore.frame .register (by decide)
  have htime : u.time = s.time := hbefore.frame .time (by decide)
  have hprograms : u.programs = s.programs := hbefore.frame .programs (by decide)
  rw [State.resolvesWindows, hresolver, hregister, htime, hprograms] at hv
  rw [State.resolvesWindows, (hafter.frame .resolver (by decide) : t.resolver = v.resolver),
    (hafter.frame .register (by decide) : t.register = v.register)]
  exact hv

/-- A table written, counted and resolved. -/
theorem State.writeWindows_resolve (ws : List (Option Window)) :
    let v := ((s.writeWindows ws).count .ordersApplied).resolve cfg
    s.countsWindow v ∧ s.resolvesWindows cfg v ∧ v.resolver.windows = ws :=
  ⟨State.countsWindow_of_frame (State.resolve_frame cfg _) (by decide),
    State.resolvesWindows_of_given (State.resolve_resolvedGiven id) (State.resolve_time cfg _)
      (State.resolve_programs cfg _), State.resolve_windows cfg _⟩

/-- A table written, counted, examined for expiry and resolved. -/
theorem State.writeWindows_expireAndResolve (ws : List (Option Window)) :
    let v := ((s.writeWindows ws).count .ordersApplied).expireAndResolve cfg
    s.countsWindow v ∧ s.resolvesWindows cfg v ∧
      v.resolver.windows = if s.time.state.valid then freeExpired s.time.clock ws else ws :=
  ⟨State.countsWindow_of_frame (State.expireAndResolve_frame cfg _) (by decide),
    State.resolvesWindows_of_given (State.expireAndResolve_resolvedGiven id)
      (State.expireAndResolve_frame cfg _ .time (by decide))
      (State.expireAndResolve_frame cfg _ .programs (by decide)), State.expireAndResolve_windows cfg _⟩

end

/-- Settles O37, by the branches of `State.setWindow` and `State.clearWindow`. -/
theorem windowOrdersAreJudged : Obligations.WindowOrdersAreJudged := by
  intro s cfg bytes levels hrun hend h hkind haddr hlength superseding held before
  obtain ⟨u, hbefore, hafter⟩ := State.reception_routed hrun hend h levels
  rw [State.route_of_order hkind haddr] at hafter
  have htimeU : u.time = s.time := hbefore.frame .time (by decide)
  have hresolverU : u.resolver = s.resolver := hbefore.frame .resolver (by decide)
  have hrouted := u.routeOrder_frame cfg bytes
  have hframe := hafter.frame
  have hwindows : (s.after (.receptionEnd bytes levels)).resolver = (u.routeOrder cfg bytes).resolver :=
    hafter.frame .resolver (by decide)
  have hheld : ∀ slot, slotSupersedes u.resolver.windows slot (originOf bytes) (serialOf bytes) = true ↔ held slot :=
    fun slot => by rw [hresolverU]; exact slotSupersedes_iff
  refine ⟨_, exec_eq_next _ s, ?_⟩
  intro refused applied resolved
  refine ⟨fun slot start stop band mode horder => ?_, fun slot horder => ?_,
    (hframe .time (by decide)).trans ((hrouted .time (by decide)).trans htimeU),
    (hframe .programs (by decide)).trans ((hrouted .programs (by decide)).trans (hbefore.frame .programs (by decide)))⟩
  · have hroute : u.routeOrder cfg bytes =
        u.setWindow cfg (originOf bytes) (serialOf bytes) slot start stop band mode := by
      rw [State.routeOrder, horder]
    rw [hroute] at hafter hwindows
    refine ⟨fun hcase => ?_, fun hslot hstart hnot => ?_⟩
    · rw [State.setWindow_of_refused (hcase.imp_right (Or.imp
        (fun hn => Bool.eq_false_iff.2 (mt Minute.before_iff.1 hn)) (hheld slot).2))] at hafter
      exact u.refusesWindow_count.between hbefore hafter
    · rw [State.setWindow_of_taken hslot (Minute.before_iff.2 hstart) (mt (hheld slot).1 hnot),
        hresolverU] at hafter hwindows
      obtain ⟨hcounts, hresolves, hws⟩ := State.writeWindows_expireAndResolve (cfg := cfg) (s := u)
        (s.resolver.windows.set slot (some ⟨start, stop, band, mode, originOf bytes, serialOf bytes⟩))
      refine ⟨hcounts.between hbefore hafter, hresolves.between hbefore hafter, ?_⟩
      rw [htimeU] at hws
      exact (congrArg Resolver.windows hwindows).trans hws
  · have hroute : u.routeOrder cfg bytes = u.clearWindow cfg (originOf bytes) (serialOf bytes) slot := by
      rw [State.routeOrder, horder]
    rw [hroute] at hafter hwindows
    refine ⟨fun hcase => ?_, fun hslot hnot => ?_, fun hslot => ?_⟩
    · rw [State.clearWindow_of_refused (hcase.imp_right (And.imp_right (hheld slot).2))] at hafter
      exact u.refusesWindow_count.between hbefore hafter
    · obtain ⟨x, hx⟩ : ∃ x, s.resolver.windows[slot]? = some x := ⟨_, List.getElem?_eq_getElem (by omega)⟩
      cases x with
      | none =>
        rw [State.clearWindow_of_free hslot (mt (hheld slot).1 hnot) (by rw [hresolverU, hx])] at hafter hwindows
        have hsame := hwindows.trans hresolverU
        refine ⟨u.countsWindow_count.between hbefore hafter, ?_, fun _ => hsame, fun hne => absurd hx hne⟩
        obtain ⟨hlt, hx⟩ := List.getElem?_eq_some_iff.1 hx
        rw [hsame, ← hx, List.set_getElem_self]
      | some w =>
        rw [State.clearWindow_of_taken hslot (mt (hheld slot).1 hnot) (by rw [hresolverU, hx]), hresolverU]
          at hafter hwindows
        obtain ⟨hcounts, hresolves, hws⟩ := State.writeWindows_resolve (cfg := cfg) (s := u)
          (s.resolver.windows.set slot none)
        refine ⟨hcounts.between hbefore hafter, (congrArg Resolver.windows hwindows).trans hws, fun heq => ?_,
          fun _ => hresolves.between hbefore hafter⟩
        rw [hx] at heq
        cases heq
    · subst hslot
      rw [State.clearWindow_all, hresolverU] at hafter hwindows
      have hleft : ∀ ws, ws = clearAll (originOf bytes) (serialOf bytes) s.resolver.windows →
          ws.length = 24 ∧ ∀ (i : Nat) (w : Window), ws[i]? = some (some w) ↔
            s.resolver.windows[i]? = some (some w) ∧ superseding w := fun ws hws => by
        subst hws
        exact ⟨(length_clearAll ..).trans hlength, fun i w => getElem?_clearAll⟩
      split_ifs at hafter hwindows with hsame
      · have hresolver := hwindows.trans hresolverU
        obtain ⟨hlen, hiff⟩ := hleft _ (hsame.trans (congrArg Resolver.windows hresolver).symm).symm
        exact ⟨u.countsWindow_count.between hbefore hafter, hlen, hiff, fun _ => hresolver,
          fun hne => absurd (congrArg Resolver.windows hresolver) hne⟩
      · obtain ⟨hcounts, hresolves, hws⟩ := State.writeWindows_resolve (cfg := cfg) (s := u)
          (clearAll (originOf bytes) (serialOf bytes) s.resolver.windows)
        have hcleared := (congrArg Resolver.windows hwindows).trans hws
        obtain ⟨hlen, hiff⟩ := hleft _ hcleared
        exact ⟨hcounts.between hbefore hafter, hlen, hiff, fun heq => absurd (hcleared.symm.trans heq) hsame,
          fun _ => hresolves.between hbefore hafter⟩

end Sys2Proof.Machine
end

section
/-! PROOF. Accepted segments, the completed assembly and the assembly countdown (sections 5.3 and 5.4). -/

namespace Sys2Proof.Machine

/-! ## Collecting (R90, R91) -/

theorem newer_self (a : Word) : newer a a = false := by
  rw [Bool.eq_false_iff, ne_eq, newer_iff, BitVec.sub_self]
  simp

section
variable {id : Word} {k : Nat} {data : List Byte} {g : Staging}

theorem takeSegment_of_newer (h : newer id g.id = true) :
    takeSegment (some g) id k data = openStaging id k data := if_pos h

theorem takeSegment_of_same (h : id = g.id) :
    takeSegment (some g) id k data = { g with segments := g.segments.set k (some data) } := by
  subst h
  rw [takeSegment, if_neg (by simp [newer_self]), if_pos rfl]

theorem takeSegment_of_older (h : newer id g.id = false) (hne : id ≠ g.id) : takeSegment (some g) id k data = g := by
  rw [takeSegment, if_neg (by simp [h]), if_neg hne]

end

/-- A staging record kept, or its program judged when no segment is missing (R91, R93). -/
def State.stores (cfg : Configuration) (g : Staging) (s : State) : State :=
  if g.segments.all Option.isSome then s.complete cfg (assembledImage g.segments)
  else s.setPrograms { s.programs with staging := some g }

section
variable {cfg : Configuration} {s : State}

theorem State.collect_eq {origin : Byte} {payload : List Byte} (horigin : s.origins.primary = some origin)
    (hk : segmentIndex payload ≤ 7) : s.collect cfg origin payload =
      s.stores cfg (takeSegment s.programs.staging (segmentId payload) (segmentIndex payload) (segmentData payload)) :=
  if_pos ⟨horigin, hk⟩

theorem State.collect_of_other {origin : Byte} {payload : List Byte}
    (h : s.origins.primary ≠ some origin ∨ 8 ≤ segmentIndex payload) : s.collect cfg origin payload = s :=
  if_neg fun hc => h.elim (fun hne => hne hc.1) fun hk => by have := hc.2; omega

theorem all_isSome_iff {segments : List (Option (List Byte))} :
    segments.all Option.isSome = true ↔ none ∉ segments := by
  rw [List.all_eq_true]
  exact ⟨fun h hn => by simpa using h none hn, fun h x hx => Option.isSome_iff_ne_none.2 fun hn => h (hn ▸ hx)⟩

theorem State.stores_of_missing {g : Staging} (h : none ∈ g.segments) :
    s.stores cfg g = s.setPrograms { s.programs with staging := some g } :=
  if_neg fun hall => all_isSome_iff.1 hall h

theorem State.stores_of_complete {g : Staging} (h : none ∉ g.segments) :
    s.stores cfg g = s.complete cfg (assembledImage g.segments) := if_pos (all_isSome_iff.2 h)

/-! ## The judgement of a completed program (R93) -/

/-- A completed program is taken: its check, its activation tick, and its id against each program held. -/
def Collector.takes (k : Collector) (image : List Byte) : Prop :=
  programPasses image = true ∧ (programOf image).activation.tick < 8640000 ∧
  (∀ q ∈ k.next, newer (programOf image).id q.id = true) ∧ ∀ q ∈ k.active, newer (programOf image).id q.id = true

theorem newerThan_iff {id : Word} {p : Option Program} : newerThan id p = true ↔ ∀ q ∈ p, newer id q.id = true := by
  cases p <;> simp [newerThan]

theorem State.complete_of_discarded {image : List Byte} (h : ¬ s.programs.takes image) :
    s.complete cfg image = (s.setPrograms { s.programs with staging := none }).count .progDiscarded := by
  unfold State.complete
  dsimp only
  split_ifs with hcheck htick hnewer
  · rfl
  · rfl
  · rfl
  · rw [Bool.not_eq_true, Bool.not_eq_false', Bool.and_eq_true, newerThan_iff, newerThan_iff] at hnewer
    exact absurd ⟨by simpa using hcheck, not_le.1 htick, hnewer⟩ h

theorem State.complete_of_taken {image : List Byte} (h : s.programs.takes image) : s.complete cfg image =
    ((s.setPrograms ⟨none, some (programOf image), s.programs.active⟩).count .progComplete).examineProgram cfg := by
  obtain ⟨hcheck, htick, hnext, hactive⟩ := h
  unfold State.complete
  dsimp only
  rw [if_neg (by simp [hcheck]), if_neg (show ¬ Config.dayTicks ≤ _ from not_le.2 htick),
    if_neg (by simp [newerThan_iff.2 hnext, newerThan_iff.2 hactive])]
  rfl

/-! ## An examination of a pending program (R95) -/

theorem State.examineProgram_of_due {p : Program} (hp : s.programs.next = some p) (h : p.due s.time = true) :
    s.examineProgram cfg = s.activate cfg [] p := by
  rw [State.examineProgram, State.examineAwaiting, hp]
  exact if_pos h

theorem State.examineProgram_of_not_due (h : ∀ p ∈ s.programs.next, p.due s.time = false) :
    s.examineProgram cfg = s := by
  unfold State.examineProgram State.examineAwaiting
  split
  next p hp => exact if_neg (by simp [h p hp])
  · rfl

/-- A program taken is pending, and active at once where it is due (R93, R95). -/
theorem State.complete_taken_spec {image : List Byte} (h : s.programs.takes image) :
    let p := programOf image
    let due := p.activation = ⟨0, 0⟩ ∨ s.time.state.valid = true ∧ s.time.clock.hasReached p.activation = true
    (s.complete cfg image).programs =
      (if due then ⟨none, none, some p⟩ else ⟨none, some p, s.programs.active⟩) ∧
    (due → (s.complete cfg image).status.changePending = true) ∧
    (¬ due → (s.complete cfg image).monitor = s.monitor ∧ (s.complete cfg image).status = s.status) ∧
    (s.complete cfg image).counters = s.counters.add .progComplete 1 := by
  intro p due
  rw [State.complete_of_taken h]
  have hdue : p.due s.time = true ↔ due := p.due_iff s.time
  refine ⟨State.examineProgram_programs cfg _, fun hd => ?_, fun hnot => ?_,
    State.examineProgram_frame cfg _ .counters (by decide)⟩
  · have hactivated := State.examineProgram_of_due (cfg := cfg) (p := p)
      (s := (s.setPrograms ⟨none, some p, s.programs.active⟩).count .progComplete) rfl (hdue.2 hd)
    rw [hactivated]
    exact State.activate_pending _ cfg [] p
  · rw [State.examineProgram_of_not_due]
    · exact ⟨rfl, rfl⟩
    · rintro q ⟨⟩
      exact Bool.eq_false_iff.2 fun hd => hnot (hdue.1 hd)

/-! ## The assembly countdown (R92) -/

theorem State.assemblyTick_of_running {g : Staging} (hg : s.programs.staging = some g) (h : 2 ≤ g.countdown) :
    s.assemblyTick = s.setPrograms { s.programs with staging := some { g with countdown := g.countdown - 1 } } := by
  rw [State.assemblyTick, hg]
  exact if_neg (by omega)

theorem State.assemblyTick_of_ending {g : Staging} (hg : s.programs.staging = some g) (h : g.countdown ≤ 1) :
    s.assemblyTick = (s.setPrograms { s.programs with staging := none }).count .progDiscarded := by
  rw [State.assemblyTick, hg]
  exact if_pos h

theorem State.assemblyTick_of_none (hg : s.programs.staging = none) : s.assemblyTick = s := by
  rw [State.assemblyTick, hg]

theorem State.route_of_segment {bytes : List Byte} (hkind : kindOf bytes = 3)
    (haddr : addresses cfg (targetOf bytes) = true) :
    s.route cfg bytes = s.collect cfg (originOf bytes) (payloadOf bytes) := by
  unfold State.route
  rw [if_neg (by omega), if_neg (by omega), if_pos hkind, if_pos haddr]

/-- Where the routing reports nothing and SILENCE is inactive, the acceptance reports nothing (R150, R198). -/
theorem State.aside.unreported {u v t : State} (hbefore : s.endReception.aside u) (hafter : v.aside t)
    (hmonitor : v.monitor = u.monitor) (hstatus : v.status = u.status) (hquiet : s.monitor.conditions.silence = false) :
    t.status = s.status := by
  obtain ⟨hquietU, -, hstatusU⟩ := hbefore.quiet hquiet
  obtain ⟨-, -, hstatusT⟩ := hafter.quiet (by rw [hmonitor]; exact hquietU)
  exact hstatusT.trans (hstatus.trans hstatusU)

end

/-- Settles O33: what the routing makes of the segment, whatever the acceptance does beside; and the countdown. -/
theorem segmentsAreCollectedAndJudged : Obligations.SegmentsAreCollectedAndJudged := by
  constructor
  · intro s cfg bytes levels hrun hend h hkind haddr id k data fresh
    obtain ⟨u, hbefore, hafter⟩ := State.reception_routed hrun hend h levels
    rw [State.route_of_segment hkind haddr] at hafter
    have hprogramsU : u.programs = s.programs := hbefore.frame .programs (by decide)
    have htimeU : u.time = s.time := hbefore.frame .time (by decide)
    refine ⟨_, exec_eq_next _ s, ?_⟩
    intro keptCounts unreported stored
    have hcompleteU : u.counters.progComplete = s.counters.progComplete :=
      hbefore.count Counters.progComplete fun _ _ _ => rfl
    have hdiscardedU : u.counters.progDiscarded = s.counters.progDiscarded :=
      hbefore.count Counters.progDiscarded fun _ _ _ => rfl
    have hunchanged : u.collect cfg (originOf bytes) (payloadOf bytes) = u →
        (s.after (.receptionEnd bytes levels)).programs = s.programs ∧ keptCounts ∧ unreported := fun hv => by
      rw [hv] at hafter
      refine ⟨(hafter.frame .programs (by decide)).trans hprogramsU, ⟨?_, ?_⟩,
        State.aside.unreported hbefore hafter rfl rfl⟩
      · exact (hafter.count Counters.progComplete fun _ _ _ => rfl).trans hcompleteU
      · exact (hafter.count Counters.progDiscarded fun _ _ _ => rfl).trans hdiscardedU
    have hstored : ∀ g, u.collect cfg (originOf bytes) (payloadOf bytes) = u.stores cfg g → stored g := fun g hv => by
      rw [hv] at hafter
      refine ⟨fun hmissing => ?_, fun hcomplete => ?_⟩
      · rw [State.stores_of_missing hmissing, hprogramsU] at hafter
        refine ⟨hafter.frame .programs (by decide), ⟨?_, ?_⟩, State.aside.unreported hbefore hafter rfl rfl⟩
        · exact (hafter.count Counters.progComplete fun _ _ _ => rfl).trans hcompleteU
        · exact (hafter.count Counters.progDiscarded fun _ _ _ => rfl).trans hdiscardedU
      · intro image p taken due
        rw [State.stores_of_complete hcomplete] at hafter
        refine ⟨fun hnot => ?_, fun htaken => ?_⟩
        · rw [State.complete_of_discarded (by rw [hprogramsU]; exact hnot), hprogramsU] at hafter
          refine ⟨hafter.frame .programs (by decide), State.aside.unreported hbefore hafter rfl rfl, ?_, ?_⟩
          · exact (hafter.count Counters.progComplete fun _ _ _ => rfl).trans hcompleteU
          · exact (hafter.count Counters.progDiscarded fun _ _ _ => rfl).trans
              (congrArg (saturate · 1) hdiscardedU)
        · obtain ⟨hprograms, hdue, hnotDue, hcounters⟩ := State.complete_taken_spec (cfg := cfg) (s := u)
            (show u.programs.takes image by rw [hprogramsU]; exact htaken)
          rw [htimeU] at hprograms hdue hnotDue
          rw [hprogramsU] at hprograms
          exact ⟨(hafter.frame .programs (by decide)).trans hprograms, fun hd => hafter.noted.2.2 (hdue hd),
            fun hnot => State.aside.unreported hbefore hafter (hnotDue hnot).1 (hnotDue hnot).2,
            (hafter.count Counters.progComplete fun _ _ _ => rfl).trans
              ((congrArg Counters.progComplete hcounters).trans (congrArg (saturate · 1) hcompleteU)),
            (hafter.count Counters.progDiscarded fun _ _ _ => rfl).trans
              ((congrArg Counters.progDiscarded hcounters).trans hdiscardedU)⟩
    refine ⟨fun hother => hunchanged (State.collect_of_other (by rw [hbefore.primary]; exact hother)),
      fun horigin hk => ?_⟩
    have hv := State.collect_eq (cfg := cfg) (s := u) (hbefore.primary.trans horigin) hk
    rw [hprogramsU] at hv
    refine ⟨fun hnone => hstored _ ?_, fun g hg => ⟨fun hnew => hstored _ ?_, fun hsame => hstored _ ?_,
      fun hold hne hmissing => hunchanged ?_⟩⟩
    · rw [hv, hnone]
      rfl
    · rw [hv, hg, takeSegment_of_newer hnew]
      rfl
    · rw [hv, hg, takeSegment_of_same hsame]
    · rw [hv, hg, takeSegment_of_older hold hne, State.stores_of_missing hmissing, ← hg, ← hprogramsU]
      rfl
  · intro s cfg hrun
    have hafter : s.after .assemblyTimeout = s.assemblyTick := by
      rw [State.after_assemblyTimeout, State.whenConfigured_eq hrun]
    refine ⟨fun g hg hrunning => ?_, fun g hg hending => ⟨_, exec_eq_next _ s, ?_⟩, fun hnone => ?_⟩
    · rw [exec_eq_next, hafter, State.assemblyTick_of_running hg hrunning]
    · rw [hafter, State.assemblyTick_of_ending hg hending]
      exact ⟨rfl, rfl, ((s.setPrograms_frame _).mono (by decide)).trans ((State.count_frame _ _).mono (by decide))⟩
    · rw [exec_eq_next, hafter, State.assemblyTick_of_none hnone]

end Sys2Proof.Machine
end

section
/-! PROOF. What an advance of the clock brings about (sections 5.4, 6.2, 6.4 and 6.5). -/

namespace Sys2Proof.Machine

/-! ## Expiry (R107) -/

theorem getElem?_freeExpired {clock : Moment} {windows : List (Option Window)} {i : Nat} {w : Window} :
    (freeExpired clock windows)[i]? = some (some w) ↔
      windows[i]? = some (some w) ∧ clock.hasReached w.stop.moment ≠ true := by
  rw [freeExpired, List.getElem?_map]
  rcases windows[i]? with _ | _ | v
  · simp
  · simp
  · by_cases h : clock.hasReached v.stop.moment = true
    · simp only [Option.map_some, if_pos h, Option.some.injEq, reduceCtorEq, false_iff]
      rintro ⟨rfl, hw⟩
      exact hw h
    · simp only [Option.map_some, if_neg h, Option.some.injEq]
      exact ⟨fun heq => ⟨heq, heq ▸ h⟩, And.left⟩

theorem getElem?_unstarted {awaited : List Moment} {windows : List (Option Window)} {i : Nat} {w : Window} :
    (unstarted awaited windows)[i]? = some (some w) ↔ windows[i]? = some (some w) ∧ w.start.moment ∉ awaited := by
  rw [unstarted, List.getElem?_map]
  rcases windows[i]? with _ | _ | v
  · simp
  · simp
  · simp only [Option.map_some, Option.some.injEq, Option.filter_eq_some_iff]
    refine and_congr_right fun heq => ?_
    simp

/-- A window table is told by its length and by what each slot holds. -/
theorem windows_ext {ws vs : List (Option Window)} (hlength : ws.length = vs.length)
    (h : ∀ (i : Nat) (w : Window), ws[i]? = some (some w) ↔ vs[i]? = some (some w)) : ws = vs := by
  refine List.ext_getElem hlength fun i hi hi' => Option.ext fun w => ?_
  have := h i w
  rwa [List.getElem?_eq_getElem hi, List.getElem?_eq_getElem hi', Option.some.injEq, Option.some.injEq] at this

/-! ## The moments crossed -/

theorem mem_crossedMoments {clock m : Moment} {n : Nat} :
    m ∈ crossedMoments clock n ↔ ∃ k, 1 ≤ k ∧ k ≤ n ∧ m = clock.later k := by
  rw [crossedMoments, List.mem_map]
  constructor
  · rintro ⟨i, hi, rfl⟩
    rw [List.mem_range] at hi
    exact ⟨i + 1, by omega, by omega, rfl⟩
  · rintro ⟨k, hk, hn, rfl⟩
    exact ⟨k - 1, by rw [List.mem_range]; omega, by rw [Nat.sub_add_cancel hk]⟩

section
variable {crossed : List Moment} {s : State}

theorem mem_due {b : Bool} {e e' : ClockEvent} : e ∈ (if b then [e'] else []) ↔ e = e' ∧ b = true := by
  cases b <;> simp

theorem State.mem_clockEvents {e : ClockEvent} : e ∈ s.clockEvents crossed ↔
    e = .boundary ∧ boundaryAmong crossed = true ∨
    e = .windowStart ∧ (s.time.state.valid && startsAmong crossed s.resolver.windows) = true ∨
    e = .windowEnd ∧ (s.time.state.valid && endsAmong crossed s.resolver.windows) = true ∨
    e = .activation ∧ s.programs.reachedAmong crossed = true := by
  rw [State.clockEvents, List.mem_append, List.mem_append, List.mem_append, mem_due, mem_due, mem_due, mem_due,
    or_assoc, or_assoc]

theorem State.boundary_mem_clockEvents :
    .boundary ∈ s.clockEvents crossed ↔ ∃ m, m ∈ crossed ∧ m.tick % 180000 = 0 := by
  simp [State.mem_clockEvents, boundaryAmong]
  rfl

theorem State.windowStart_mem_clockEvents : .windowStart ∈ s.clockEvents crossed ↔
    s.time.state.valid = true ∧ ∃ slot ∈ s.resolver.windows, ∃ w ∈ slot, w.start.moment ∈ crossed := by
  simp [State.mem_clockEvents, startsAmong, Option.any_eq_true]

theorem State.windowEnd_mem_clockEvents : .windowEnd ∈ s.clockEvents crossed ↔
    s.time.state.valid = true ∧ ∃ slot ∈ s.resolver.windows, ∃ w ∈ slot, w.stop.moment ∈ crossed := by
  simp [State.mem_clockEvents, endsAmong, Option.any_eq_true]

theorem State.activation_mem_clockEvents : .activation ∈ s.clockEvents crossed ↔
    ∃ p ∈ s.programs.next, p.activation ∈ crossed := by
  simp [State.mem_clockEvents, Collector.reachedAmong, Option.any_eq_true]

theorem State.clockEvents_of_meeting (hboundary : .boundary ∈ s.clockEvents crossed)
    (hstart : .windowStart ∈ s.clockEvents crossed) (hend : .windowEnd ∉ s.clockEvents crossed)
    (hactivation : .activation ∉ s.clockEvents crossed) : s.clockEvents crossed = [.boundary, .windowStart] := by
  simp only [State.mem_clockEvents, reduceCtorEq, false_and, true_and, false_or, or_false]
    at hboundary hstart hend hactivation
  rw [State.clockEvents, if_pos hboundary, if_pos hstart, if_neg hend, if_neg hactivation]
  rfl

theorem State.clockEvents_nodup : (s.clockEvents crossed).Nodup := by
  unfold State.clockEvents
  split_ifs <;> decide

end

/-! ## The events taken -/

section
variable {cfg : Configuration} {crossed : List Moment} {s : State}

theorem State.takeClockEvents_reports (es : List ClockEvent) : s.reports (s.takeClockEvents cfg crossed es) :=
  State.takeClockEvents_keeps (P := fun t => s.reports t) (fun awaited e t ht => ht.trans (t.clockEvent_reports cfg
    awaited e)) es (.refl s)

/-- Where no event but an activation is due, either nothing happens or the pending program is activated. -/
theorem State.takeClockEvents_of_activation {es : List ClockEvent} (hn : es.Nodup) (h : ∀ e ∈ es, e = .activation) :
    s.takeClockEvents cfg crossed es = s ∨
      ∃ p, s.programs.next = some p ∧ s.takeClockEvents cfg crossed es = s.activate cfg [] p := by
  match es, hn, h with
  | [], _, _ => exact .inl rfl
  | [e], _, h =>
    obtain rfl := h e List.mem_cons_self
    have hone : s.takeClockEvents cfg crossed [.activation] = s.examineAwaiting cfg [] := rfl
    rw [hone, State.examineAwaiting]
    split
    next p hp =>
      split_ifs
      · exact .inr ⟨p, hp, rfl⟩
      · exact .inl rfl
    · exact .inl rfl
  | e :: e' :: rest, hn, h =>
    have heq : e = e' := (h e (by simp)).trans (h e' (by simp)).symm
    exact absurd hn (by simp [heq])

/-- What is left after a crossed moment other than an activation time, or after an activation, is resolved (R116). -/
theorem State.takeClockEvents_resolved_of_changed {es : List ClockEvent} (hindex : s.resolver.index = s.register)
    (hn : es.Nodup)
    (h : (∃ e ∈ es, e ≠ .activation) ∨ (s.takeClockEvents cfg crossed es).programs ≠ s.programs) :
    (s.takeClockEvents cfg crossed es).resolved cfg := by
  by_cases hother : ∃ e ∈ es, e ≠ .activation
  · exact State.takeClockEvents_resolved es hindex hn (.inl hother)
  · obtain hsame | ⟨p, -, hactivated⟩ := State.takeClockEvents_of_activation (cfg := cfg) (crossed := crossed) (s := s)
      hn fun e he => by_contra fun hne => hother ⟨e, he, hne⟩
    · exact absurd (congrArg State.programs hsame) (h.resolve_left hother)
    · rw [hactivated]
      exact State.activate_resolved hindex

/-- An advance that crosses nothing but an activation time, and activates nothing, does nothing (R95). -/
theorem State.takeClockEvents_of_idle {es : List ClockEvent} (hn : es.Nodup) (h : ∀ e ∈ es, e = .activation)
    (hsame : (s.takeClockEvents cfg crossed es).programs = s.programs) : s.takeClockEvents cfg crossed es = s := by
  obtain hidle | ⟨p, hp, hactivated⟩ := State.takeClockEvents_of_activation (cfg := cfg) (crossed := crossed) hn h
  · exact hidle
  · rw [hactivated, State.activate_programs] at hsame
    have hnone : none = s.programs.next := congrArg Collector.next hsame
    rw [hp] at hnone
    cases hnone

theorem State.resolve_resolve (s : State) : (s.resolve cfg).resolve cfg = s.resolve cfg := by
  refine State.resolve_eq_self ?_ ?_
  · simp [State.resolve_resolver, State.resolve_time, State.resolve_programs]
  · simp [State.resolve_resolver, State.resolve_time, State.resolve_programs]

/-- A slot boundary that meets a window's start: taken first, the boundary does not find the window (log 25). -/
theorem State.takeClockEvents_of_meeting (k : Nat) :
    (k % 2 = 0 → s.takeClockEvents cfg crossed (arrange k [.boundary, .windowStart]) =
      (s.resolveOver cfg (unstarted crossed s.resolver.windows)).resolve cfg) ∧
    (k % 2 = 1 → s.takeClockEvents cfg crossed (arrange k [.boundary, .windowStart]) = s.resolve cfg) := by
  constructor
  · intro hk
    have harrange : arrange k [ClockEvent.boundary, .windowStart] = [.boundary, .windowStart] := by
      simp [arrange, arrangeFrom, hk, Nat.mod_one]
    rw [harrange, ← State.resolveAwaiting_nil]
    rfl
  · intro hk
    have harrange : arrange k [ClockEvent.boundary, .windowStart] = [.windowStart, .boundary] := by
      simp [arrange, arrangeFrom, hk, Nat.mod_one]
    rw [harrange]
    refine Eq.trans ?_ (s.resolve_resolve (cfg := cfg))
    rw [← State.resolveAwaiting_nil, ← State.resolveAwaiting_nil]
    rfl

theorem State.advanceClock_eq (hl : s.loader.load = .configured cfg) (crossed : List Moment)
    (hcrossed : crossedMoments s.time.clock (s.time.stride (endsSecond s.elapsed)) = crossed) (now : State)
    (hnow : (s.setTime (s.time.tick (endsSecond s.elapsed))).met = now) :
    s.advanceClock = now.takeClockEvents cfg crossed (arrange s.meeting (now.clockEvents crossed)) := by
  subst hcrossed hnow
  unfold State.advanceClock
  rw [hl]
  rfl

end

/-- Settles O29: the events of the advance are those whose moments it crosses, in whatever order they are taken. -/
theorem advanceReachesTheWatchers : Obligations.AdvanceReachesTheWatchers := by
  refine ⟨fun clock windows => ⟨length_freeExpired clock windows, fun i w => ?_⟩, ?_⟩
  · rw [getElem?_freeExpired, ne_eq, Moment.hasReached_iff]
    rfl
  · intro s cfg hrun hindex crosses starts ends boundary reached
    generalize hcrossed : crossedMoments s.time.clock (s.time.stride (endsSecond s.elapsed)) = crossed
    generalize hnow : (s.setTime (s.time.tick (endsSecond s.elapsed))).met = now
    have hmem : ∀ m, m ∈ crossed ↔ crosses m := fun m => by rw [← hcrossed]; exact mem_crossedMoments
    have hafter : s.after .clockAdvance =
        now.takeClockEvents cfg crossed (arrange s.meeting (now.clockEvents crossed)) := by
      rw [State.after_clockAdvance, State.whenRunning_eq hrun.1]
      exact State.advanceClock_eq hrun.2 crossed hcrossed now hnow
    have hframe : s.keepsAllBut [.meetings, .time] now := by
      rw [← hnow]
      exact ((s.setTime_frame _).mono (by decide)).trans ((State.met_frame _).mono (by decide))
    have hwindows : now.resolver = s.resolver := hframe .resolver (by decide)
    have hprograms : now.programs = s.programs := hframe .programs (by decide)
    have hvalid : now.time.state.valid = s.time.state.valid := by
      rw [← hnow]
      exact congrArg TimeState.valid (s.time.tick_state _)
    have hclock : now.time.clock = s.time.clock.later (s.time.stride (endsSecond s.elapsed)) := by
      rw [← hnow]
      exact s.time.tick_clock _
    have hstarts : .windowStart ∈ now.clockEvents crossed ↔ starts := by
      rw [State.windowStart_mem_clockEvents, hwindows, hvalid]
      simp only [hmem]
      rfl
    have hends : .windowEnd ∈ now.clockEvents crossed ↔ ends := by
      rw [State.windowEnd_mem_clockEvents, hwindows, hvalid]
      simp only [hmem]
      rfl
    have hboundary : .boundary ∈ now.clockEvents crossed ↔ boundary := by
      rw [State.boundary_mem_clockEvents]
      simp only [hmem]
      rfl
    have hactivation : .activation ∈ now.clockEvents crossed ↔ ∃ p ∈ s.programs.next, crosses p.activation := by
      rw [State.activation_mem_clockEvents, hprograms]
      simp only [hmem]
    have hperm := arrange_perm s.meeting (now.clockEvents crossed)
    have hn : (arrange s.meeting (now.clockEvents crossed)).Nodup := hperm.nodup_iff.2 State.clockEvents_nodup
    have htime : (s.after .clockAdvance).time = now.time := by
      rw [hafter]
      exact State.takeClockEvents_frame cfg crossed _ now .time (by decide)
    have hreports : now.reports (s.after .clockAdvance) := by
      rw [hafter]
      exact State.takeClockEvents_reports _
    have hprogramsT : (s.after .clockAdvance).programs =
        if .activation ∈ arrange s.meeting (now.clockEvents crossed) then s.programs.examined now.time
        else s.programs := by
      rw [hafter, State.takeClockEvents_programs, hprograms]
    have hwindowsT : (s.after .clockAdvance).resolver.windows =
        if .windowEnd ∈ arrange s.meeting (now.clockEvents crossed) ∧ now.time.state.valid = true then
          freeExpired now.time.clock s.resolver.windows else s.resolver.windows := by
      rw [hafter, State.takeClockEvents_windows, hwindows]
    refine ⟨_, exec_eq_next _ s, fun he => ?_, fun he => ?_, ?_, fun p hp hr => ?_, fun hr => ?_, fun hc => ?_,
      fun hc hsame => ?_, fun hs hb he ha others hlength hothers => ?_⟩
    · rw [htime, hwindowsT, if_pos ⟨hperm.mem_iff.2 (hends.2 he), hvalid.trans he.1⟩]
    · rw [hwindowsT, if_neg fun h => he (hends.1 (hperm.mem_iff.1 h.1))]
    · have hstatus : now.status = s.status := hframe .status (by decide)
      rw [← hstatus]
      exact hreports.noted
    · have hactivated : (s.after .clockAdvance).programs = { s.programs with active := some p, next := none } := by
        rw [hprogramsT, if_pos (hperm.mem_iff.2 (hactivation.2 ⟨p, hp, hr.1⟩)), Collector.examined, hp]
        exact if_pos (by rw [hvalid, hclock]; exact hr.2)
      refine ⟨hreports.told (.inl fun heq => ?_), hactivated⟩
      have hnone : none = s.programs.next := congrArg Collector.next (hactivated.symm.trans (heq.trans hprograms))
      rw [hp] at hnone
      cases hnone
    · rw [hprogramsT]
      split_ifs with hmember
      · obtain ⟨p, hp, hcross⟩ := hactivation.1 (hperm.mem_iff.1 hmember)
        rw [Collector.examined, Option.mem_def.1 hp]
        exact if_neg fun hdue => hr p hp ⟨hcross, by rwa [hvalid, hclock] at hdue⟩
      · rfl
    · have hother : (∃ e ∈ arrange s.meeting (now.clockEvents crossed), e ≠ .activation) ∨
          (s.after .clockAdvance).programs ≠ now.programs := by
        rw [hprograms]
        obtain h | h | h | h := hc
        · exact .inl ⟨_, hperm.mem_iff.2 (hstarts.2 h), by decide⟩
        · exact .inl ⟨_, hperm.mem_iff.2 (hends.2 h), by decide⟩
        · exact .inl ⟨_, hperm.mem_iff.2 (hboundary.2 h), by decide⟩
        · exact .inr h
      have hregister : now.register = s.register := hframe .register (by decide)
      rw [hafter] at hother ⊢
      obtain ⟨hband, hindexT, -⟩ := State.takeClockEvents_resolved_of_changed
        (by rw [hwindows, hregister, hindex]) hn hother
      exact ⟨hband, hindexT⟩
    · rw [hafter] at hsame ⊢
      rw [State.takeClockEvents_of_idle hn (fun e he => ?_) (hsame.trans hprograms.symm)]
      · exact hframe
      · have he := hperm.mem_iff.1 he
        cases e with
        | boundary => exact absurd (.inr (.inr (hboundary.1 he))) hc
        | windowStart => exact absurd (.inl (hstarts.1 he)) hc
        | windowEnd => exact absurd (.inr (.inl (hends.1 he))) hc
        | activation => rfl
    · have hmeet : now.clockEvents crossed = [.boundary, .windowStart] :=
        State.clockEvents_of_meeting (hboundary.2 hb) (hstarts.2 hs) (mt hends.1 he) fun h => by
          obtain ⟨p, hp, hcross⟩ := hactivation.1 h
          exact ha p hp hcross
      have hothersEq : others = unstarted crossed now.resolver.windows := by
        refine windows_ext ?_ fun i w => ?_
        · rw [hlength, hwindows, unstarted, List.length_map]
        · rw [hothers, getElem?_unstarted, hwindows, hmem]
      have hnowT : (s.setTime (s.after .clockAdvance).time).setMeetings s.meetings.tail = now := by
        rw [htime, ← hnow]
        rfl
      rw [hnowT, hafter, hmeet, hothersEq]
      exact State.takeClockEvents_of_meeting s.meeting

end Sys2Proof.Machine
end

section
/-! PROOF. The placement of the channels when a good image is found, and what comes after it (sections 8.8 and
10.4). -/

namespace Sys2Proof.Machine

/-! ## A channel unit about its placement -/

/-- What neither the placement nor a change of band or of condition touches of a channel. -/
def ChannelUnit.carries (u v : ChannelUnit) : Prop :=
  v.override = u.override ∧ v.input = u.input ∧ v.forced = u.forced ∧ v.setter = u.setter

theorem ChannelUnit.carries.refl (u : ChannelUnit) : u.carries u := ⟨rfl, rfl, rfl, rfl⟩

theorem ChannelUnit.carries.trans {u v w : ChannelUnit} (h : u.carries v) (h' : v.carries w) : u.carries w :=
  ⟨h'.1.trans h.1, h'.2.1.trans h.2.1, h'.2.2.1.trans h.2.2.1, h'.2.2.2.trans h.2.2.2⟩

/-- The output with its dwell, and the marks of the tick that set a countdown. -/
def ChannelUnit.bound (v : ChannelUnit) : Level × Nat × Bool × Bool := (v.output, v.dwell, v.dwellSet, v.returnSet)

section
variable (cc : ChannelConfig) {w : Work}

theorem Work.request_bound (l : Level) (h : 0 < w.unit.dwell) : (w.request cc l).unit.bound = w.unit.bound := by
  by_cases hl : l = w.unit.output
  · rw [Work.request_of_same cc hl]
    rfl
  · rw [Work.request_of_bound cc hl (.inl h)]
    rfl

/-- While a dwell runs, no level worked out afresh reaches the output (R173). -/
theorem Work.rework_bound (h : 0 < w.unit.dwell) : (w.rework cc).unit.bound = w.unit.bound := by
  unfold Work.rework
  split
  · rfl
  · dsimp only
    split_ifs
    · rfl
    · exact Work.request_bound cc _ h

theorem Work.takeBand_bound (b : Option HandedBand) (h : 0 < w.unit.dwell) :
    (w.takeBand cc b).unit.bound = w.unit.bound := Work.rework_bound (w := w.put { w.unit with band := b }) cc h

/-- The state a return countdown's setting leads to (R160). -/
def ChannelConfig.returnState (slot : Nat) : ChannelState :=
  if cc.returnSeconds slot = 0 then .normal else .returnWait (cc.returnSeconds slot)

theorem Work.beginReturn_state (slot : Nat) : (w.beginReturn cc slot).unit.state = cc.returnState slot := by
  unfold Work.beginReturn ChannelConfig.returnState
  split_ifs
  · exact Work.enterNormal_state cc w
  · rfl

/-- A return that begins leaves a bound output alone, and notes its tick where it counts (log 28). -/
theorem Work.beginReturn_bound (slot : Nat) (h : 0 < w.unit.dwell) :
    (w.beginReturn cc slot).unit.output = w.unit.output ∧ (w.beginReturn cc slot).unit.dwell = w.unit.dwell ∧
    (w.beginReturn cc slot).unit.dwellSet = w.unit.dwellSet ∧
    ∀ n, (w.beginReturn cc slot).unit.state = .returnWait n → (w.beginReturn cc slot).unit.returnSet = true := by
  unfold Work.beginReturn
  split_ifs
  · have hbound : (w.enterNormal cc).unit.bound = w.unit.bound :=
      Work.rework_bound (w := w.report { w.unit with state := .normal }) cc h
    refine ⟨congrArg Prod.fst hbound, congrArg (fun x => x.2.1) hbound, congrArg (fun x => x.2.2.1) hbound,
      fun n hn => ?_⟩
    rw [Work.enterNormal_state] at hn
    cases hn
  · exact ⟨rfl, rfl, rfl, fun _ _ => rfl⟩

theorem Work.straight_bound (l : Level) (w : Work) : (w.straight cc l).unit.output = l ∧
    (w.straight cc l).unit.dwell = 100 * cc.minDwell ∧ (w.straight cc l).unit.dwellSet = true := by
  unfold Work.straight
  split_ifs with h
  · exact ⟨h.symm, rfl, rfl⟩
  · exact ⟨rfl, rfl, rfl⟩

end

/-- A channel placed, from what it was before: its output set straight with its dwell, and its state one of `S`
(R163, R171, R172). -/
structure ChannelUnit.placed (cc : ChannelConfig) (S : ChannelState → Prop) (u v : ChannelUnit) : Prop where
  carried : u.carries v
  output : v.output = if cc.used then cc.safe else .off
  dwell : v.dwell = 100 * cc.minDwell
  dwellSet : v.dwellSet = true
  counted : ∀ n, v.state = .returnWait n → v.returnSet = true
  state : cc.used = true → S v.state

section
variable {cc : ChannelConfig} {S : ChannelState → Prop} {u v : ChannelUnit} {slot : Nat} {active : Conditions}

/-- The placement of a channel (R163). -/
theorem Work.place_placed (hdwell : 1 ≤ cc.minDwell) (hcarried : u.carries v)
    (hheld : cc.used = true → v.effective cc active = true → S .fallbackHold)
    (hfree : cc.used = true → v.effective cc active = false → S (cc.returnState slot)) :
    u.placed cc S ((Work.idle v).place cc slot active).unit := by
  have hcarries : u.carries ((Work.idle v).place cc slot active).unit :=
    hcarried.trans ⟨Work.place_override .., Work.place_input .., Work.place_forced .., Work.place_setter ..⟩
  cases hused : cc.used with
  | false =>
    have hplace : (Work.idle v).place cc slot active =
        ((Work.idle v).report { (Work.idle v).unit with state := .normal }).straight cc .off := if_neg (by simp [hused])
    rw [hplace] at hcarries ⊢
    obtain ⟨hout, hset, hmark⟩ := ((Work.idle v).report { (Work.idle v).unit with state := .normal }).straight_bound cc
      .off
    refine ⟨hcarries, hout.trans (by rw [hused]; rfl), hset, hmark, fun n hn => ?_, fun h => ?_⟩
    · rw [Work.straight_state] at hn
      cases hn
    · rw [hused] at h
      cases h
  | true =>
    generalize hheldWork : ((Work.idle v).report { (Work.idle v).unit with state := .fallbackHold }).straight cc cc.safe
      = held
    have hstate : held.unit.state = .fallbackHold := by rw [← hheldWork, Work.straight_state]; rfl
    obtain ⟨hout, hset, hmark⟩ := ((Work.idle v).report { (Work.idle v).unit with state := .fallbackHold }).straight_bound
      cc cc.safe
    rw [hheldWork] at hout hset hmark
    have hplace : (Work.idle v).place cc slot active =
        if v.effective cc active then held else held.beginReturn cc slot := by
      rw [← hheldWork]
      exact if_pos hused
    rw [hplace] at hcarries ⊢
    by_cases he : v.effective cc active = true
    · rw [if_pos he] at hcarries ⊢
      refine ⟨hcarries, hout.trans (if_pos hused).symm, hset, hmark, fun n hn => ?_, fun _ => ?_⟩
      · rw [hstate] at hn
        cases hn
      · rw [hstate]
        exact hheld hused he
    · rw [if_neg he] at hcarries ⊢
      obtain ⟨hout', hset', hmark', hcounted⟩ := held.beginReturn_bound cc slot (by omega)
      refine ⟨hcarries, (hout'.trans hout).trans (if_pos hused).symm, hset'.trans hset, hmark'.trans hmark, hcounted,
        fun _ => ?_⟩
      rw [Work.beginReturn_state]
      exact hfree hused (Bool.eq_false_iff.2 he)

/-- A band handed to a placed channel (R143, R173). -/
theorem ChannelUnit.placed.takeBand (hdwell : 1 ≤ cc.minDwell) (h : u.placed cc S v) (b : Option HandedBand) :
    u.placed cc S ((Work.idle v).takeBand cc b).unit := by
  have hpos : 0 < (Work.idle v).unit.dwell := by
    have := h.dwell
    exact (by omega : 0 < v.dwell)
  have hbound : ((Work.idle v).takeBand cc b).unit.bound = v.bound := Work.takeBand_bound cc b hpos
  have hstate : ((Work.idle v).takeBand cc b).unit.state = v.state := Work.takeBand_state ..
  refine ⟨h.carried.trans ⟨Work.takeBand_override .., Work.takeBand_input .., Work.takeBand_forced ..,
    Work.takeBand_setter ..⟩, (congrArg Prod.fst hbound).trans h.output, (congrArg (fun x => x.2.1) hbound).trans h.dwell,
    (congrArg (fun x => x.2.2.1) hbound).trans h.dwellSet, fun n hn => ?_, fun hu => ?_⟩
  · exact (congrArg (fun x => x.2.2.2) hbound).trans (h.counted n (hstate ▸ hn))
  · rw [hstate]
    exact h.state hu

/-- A placed channel let go takes the state that a cleared condition leaves it in (R159, R160). -/
theorem ChannelUnit.placed.leaveHold (hdwell : 1 ≤ cc.minDwell) (h : u.placed cc S v)
    (hflag : cc.noAutoReturn = true → S .releaseWait)
    (hreturn : cc.noAutoReturn = false → S (cc.returnState slot)) :
    u.placed cc S ((Work.idle v).leaveHold cc slot).unit := by
  have hcarries : u.carries ((Work.idle v).leaveHold cc slot).unit := h.carried.trans
    ⟨Work.leaveHold_override .., Work.leaveHold_input .., Work.leaveHold_forced .., Work.leaveHold_setter ..⟩
  cases hauto : cc.noAutoReturn with
  | true =>
    have hleave : (Work.idle v).leaveHold cc slot = (Work.idle v).report { v with state := .releaseWait } := if_pos hauto
    rw [hleave] at hcarries ⊢
    exact ⟨hcarries, h.output, h.dwell, h.dwellSet, fun n hn => (by cases hn), fun _ => hflag hauto⟩
  | false =>
    have hleave : (Work.idle v).leaveHold cc slot = (Work.idle v).beginReturn cc slot := if_neg (by simp [hauto])
    rw [hleave] at hcarries ⊢
    have hpos : 0 < (Work.idle v).unit.dwell := by
      have := h.dwell
      exact (by omega : 0 < v.dwell)
    obtain ⟨hout, hset, hmark, hcounted⟩ := (Work.idle v).beginReturn_bound cc slot hpos
    refine ⟨hcarries, hout.trans h.output, hset.trans h.dwell, hmark.trans h.dwellSet, hcounted, fun _ => ?_⟩
    rw [Work.beginReturn_state]
    exact hreturn hauto

/-- NO_PROGRAM cleared at a placed channel (R159): the states to which a channel of its mask may be let go. -/
theorem ChannelUnit.placed.noProgramCleared (hdwell : 1 ≤ cc.minDwell) (h : u.placed cc S v)
    (hactive : active.noProgram = false)
    (hflag : cc.mask.noProgram = true → cc.noAutoReturn = true → S .releaseWait)
    (hreturn : cc.mask.noProgram = true → cc.noAutoReturn = false → S (cc.returnState slot)) :
    u.placed cc S ((Work.idle v).stationCondition cc slot active .noProgram).unit := by
  by_cases hmask : cc.used = true ∧ cc.mask.noProgram = true
  · have hcleared : (Work.idle v).stationCondition cc slot active .noProgram =
        (Work.idle v).conditionCleared cc slot active :=
      (if_pos (by simpa [Conditions.get] using hmask)).trans (if_neg (by simp [Conditions.get, hactive]))
    rw [hcleared]
    by_cases hleaving : v.state = .fallbackHold ∧ v.effective cc active = false
    · rw [Work.conditionCleared_of_leaving (w := Work.idle v) hleaving.1 hleaving.2]
      exact h.leaveHold hdwell (hflag hmask.2) (hreturn hmask.2)
    · rw [Work.conditionCleared_of_staying (w := Work.idle v)]
      · exact h
      · rw [not_and_or, Bool.not_eq_false] at hleaving
        exact hleaving
  · have hidle : (Work.idle v).stationCondition cc slot active .noProgram = Work.idle v :=
      if_neg (by simpa [Conditions.get] using hmask)
    rw [hidle]
    exact h

end

/-! ## The channels about their placement -/

/-- What the events of the meeting leave of every channel. -/
def State.carriesUnits (s t : State) : Prop := ∀ c, (s.channels.get c).carries (t.channels.get c)

section
variable {cfg : Configuration} {s t : State}

theorem State.carriesUnits.trans {u : State} (h : s.carriesUnits t) (h' : t.carriesUnits u) : s.carriesUnits u :=
  fun c => (h c).trans (h' c)

theorem State.resolveOver_carriesUnits (windows : List (Option Window)) (s : State) :
    s.carriesUnits (s.resolveOver cfg windows) := fun c => by
  rw [State.resolveOver_get]
  split_ifs
  · exact .refl _
  · exact ⟨Work.takeBand_override .., Work.takeBand_input .., Work.takeBand_forced .., Work.takeBand_setter ..⟩

theorem State.setCondition_carriesUnits (k : Condition) (x : Bool) (s : State) :
    s.carriesUnits (s.setCondition cfg k x) := fun c => by
  rw [State.setCondition_get]
  split_ifs
  · exact .refl _
  · exact ⟨Work.stationCondition_override .., Work.stationCondition_input .., Work.stationCondition_forced ..,
      Work.stationCondition_setter ..⟩

theorem State.expireAndResolve_carriesUnits (s : State) : s.carriesUnits (s.expireAndResolve cfg) := by
  have h := s.expireWindows.resolveOver_carriesUnits (cfg := cfg) s.expireWindows.resolver.windows
  have hsame : s.expireWindows.channels = s.channels := s.expireWindows_frame .channels (by decide)
  rw [State.carriesUnits, hsame] at h
  exact h

theorem State.examineProgram_carriesUnits (s : State) : s.carriesUnits (s.examineProgram cfg) := by
  refine State.examineAwaiting_keeps (P := fun t => s.carriesUnits t) (fun c => .refl _) fun p => ?_
  refine State.inSomeOrder_keeps (P := fun t => s.carriesUnits t) (fun act hact t ht => ?_) fun c => .refl _
  simp only [List.mem_cons, List.not_mem_nil, or_false] at hact
  obtain rfl | rfl := hact
  · exact ht.trans (t.resolveOver_carriesUnits _)
  · exact ht.trans (t.setCondition_carriesUnits _ _)

end
end Sys2Proof.Machine
end

section
/-! PROOF. A good image found: the meeting of the examination, the placement and the first resolution (section 10.4). -/

namespace Sys2Proof.Machine

/-! ## The channels after their placement -/

/-- Every channel is placed, its state one of `S`, and NO_PROGRAM is active only where no program was (R147, R163). -/
structure State.placedFrom (cfg : Configuration) (S : Channel → ChannelState → Prop) (s t : State) : Prop where
  units : ∀ c, (s.channels.get c).placed (cfg.channel c) (S c) (t.channels.get c)
  program : t.monitor.conditions.noProgram = true → s.programs.active = none

section
variable {cfg : Configuration} {S : Channel → ChannelState → Prop} {s t : State}

theorem State.placeChannels_get (t : State) (c : Channel) : (t.placeChannels cfg).channels.get c =
    ((Work.idle (t.channels.get c)).place (cfg.channel c) cfg.stagger t.takeConditions.monitor.conditions).unit :=
  State.onEachChannel_get _ _ c

theorem State.placeChannels_monitor (t : State) : (t.placeChannels cfg).monitor = t.takeConditions.monitor :=
  State.onEachChannel_monitor _ _

/-- A channel that NO_PROGRAM could hold is free of it only where a program is active (R147, R157). -/
theorem State.active_of_not_effective {cc : ChannelConfig} {u : ChannelUnit}
    (h : u.effective cc t.takeConditions.monitor.conditions = false) (hmask : cc.mask.noProgram = true) :
    t.programs.active ≠ none := fun hnone => by
  refine Bool.eq_false_iff.1 h ((ChannelUnit.effective_iff u).2 (.inr ⟨.noProgram, ?_, hmask⟩))
  exact Option.isNone_iff_eq_none.2 hnone

/-- The placement (R163), after events that carried every channel. -/
theorem State.placeChannels_placedFrom (hmin : ∀ c, 1 ≤ (cfg.channel c).minDwell) (hcarried : s.carriesUnits t)
    (hactive : t.programs.active = none → s.programs.active = none) (hheld : ∀ c, S c .fallbackHold)
    (hfree : ∀ c, ((cfg.channel c).mask.noProgram = true → t.programs.active ≠ none) →
      S c ((cfg.channel c).returnState cfg.stagger)) :
    s.placedFrom cfg S (t.placeChannels cfg) := by
  refine ⟨fun c => ?_, fun h => hactive ?_⟩
  · rw [State.placeChannels_get]
    exact Work.place_placed (hmin c) (hcarried c) (fun _ _ => hheld c)
      fun _ he => hfree c (State.active_of_not_effective he)
  · rw [State.placeChannels_monitor] at h
    exact Option.isNone_iff_eq_none.1 h

theorem State.placedFrom.resolveOver (hmin : ∀ c, 1 ≤ (cfg.channel c).minDwell) (h : s.placedFrom cfg S t)
    (windows : List (Option Window)) : s.placedFrom cfg S (t.resolveOver cfg windows) := by
  refine ⟨fun c => ?_, ?_⟩
  · rw [State.resolveOver_get]
    split_ifs
    · exact h.units c
    · exact (h.units c).takeBand (hmin c) _
  · rw [(t.resolveOver_frame cfg windows .monitor (by decide) : (t.resolveOver cfg windows).monitor = t.monitor)]
    exact h.program

theorem State.placedFrom_of_frame {u : State} {ps : List Part} (hf : t.keepsAllBut ps u) (hc : Part.channels ∉ ps)
    (hm : Part.monitor ∉ ps) (h : s.placedFrom cfg S t) : s.placedFrom cfg S u := by
  have hchannels : u.channels = t.channels := hf .channels hc
  have hmonitor : u.monitor = t.monitor := hf .monitor hm
  exact ⟨by rw [hchannels]; exact h.units, by rw [hmonitor]; exact h.program⟩

theorem State.placedFrom.expireAndResolve (hmin : ∀ c, 1 ≤ (cfg.channel c).minDwell) (h : s.placedFrom cfg S t) :
    s.placedFrom cfg S (t.expireAndResolve cfg) :=
  (State.placedFrom_of_frame t.expireWindows_frame (by decide) (by decide) h).resolveOver hmin _

/-- NO_PROGRAM cleared after the placement (R164). -/
theorem State.placedFrom.reportProgram (hmin : ∀ c, 1 ≤ (cfg.channel c).minDwell) (h : s.placedFrom cfg S t)
    (hactive : t.programs.active.isNone = false)
    (hflag : ∀ c, (cfg.channel c).mask.noProgram = true → s.programs.active = none →
      (cfg.channel c).noAutoReturn = true → S c .releaseWait)
    (hreturn : ∀ c, (cfg.channel c).noAutoReturn = false → S c ((cfg.channel c).returnState cfg.stagger)) :
    s.placedFrom cfg S (t.reportProgram cfg) := by
  refine ⟨fun c => ?_, fun hraised => ?_⟩
  · rw [State.reportProgram, State.setCondition_get, hactive]
    split_ifs with hsame
    · exact h.units c
    · have hnone : s.programs.active = none := h.program (by simpa [Conditions.get] using hsame)
      exact (h.units c).noProgramCleared (hmin c) rfl (fun hmask => hflag c hmask hnone) fun _ => hreturn c
  · rw [State.reportProgram_monitor, hactive] at hraised
    cases hraised

theorem State.placedFrom.examineProgram (hmin : ∀ c, 1 ≤ (cfg.channel c).minDwell) (h : s.placedFrom cfg S t)
    (hflag : ∀ c, (cfg.channel c).mask.noProgram = true → s.programs.active = none →
      (cfg.channel c).noAutoReturn = true → S c .releaseWait)
    (hreturn : ∀ c, (cfg.channel c).noAutoReturn = false → S c ((cfg.channel c).returnState cfg.stagger)) :
    s.placedFrom cfg S (t.examineProgram cfg) := by
  refine State.examineAwaiting_keeps (P := fun u => s.placedFrom cfg S u) h fun p => ?_
  refine (State.inSomeOrder_keeps (s := (t.setPrograms { t.programs with active := some p, next := none }).noteChange)
    (P := fun u => s.placedFrom cfg S u ∧ u.programs.active = some p)
    (fun act hact u ⟨hu, hp⟩ => ?_) ⟨⟨h.units, h.program⟩, rfl⟩).1
  simp only [List.mem_cons, List.not_mem_nil, or_false] at hact
  obtain rfl | rfl := hact
  · exact ⟨hu.resolveOver hmin _, (congrArg Collector.active (u.resolveAwaiting_programs cfg [])).trans hp⟩
  · exact ⟨hu.reportProgram hmin (by rw [hp]; rfl) hflag hreturn,
      (congrArg Collector.active (u.reportProgram_frame cfg .programs (by decide))).trans hp⟩

end

/-! ## The meeting -/

/-- Three events in some order: what comes before and after the second, and how the meeting's number decides it
(log 5). -/
theorem arrange_three {α : Type} (k : Nat) (a b c : α) : ∃ pre post, arrange k [a, b, c] = pre ++ b :: post ∧
    (∀ x ∈ pre, x = a ∨ x = c) ∧ (∀ x ∈ post, x = a ∨ x = c) ∧ (k % 3 = 0 → ∀ x ∈ post, x = c) ∧
    (k % 3 = 1 → pre = []) := by
  have hthird : k % 3 = 0 ∨ k % 3 = 1 ∨ k % 3 = 2 := by omega
  have hhalf : k / 3 % 2 = 0 ∨ k / 3 % 2 = 1 := by omega
  obtain h | h | h := hthird <;> obtain h' | h' := hhalf
  · exact ⟨[a], [c], by simp [arrange, arrangeFrom, h, h', Nat.mod_one], by simp, by simp, by simp, by simp [h]⟩
  · exact ⟨[a, c], [], by simp [arrange, arrangeFrom, h, h', Nat.mod_one], by simp, by simp, by simp, by simp [h]⟩
  · exact ⟨[], [a, c], by simp [arrange, arrangeFrom, h, h', Nat.mod_one], by simp, by simp, by simp [h], by simp⟩
  · exact ⟨[], [c, a], by simp [arrange, arrangeFrom, h, h', Nat.mod_one], by simp, by simp, by simp [h], by simp⟩
  · exact ⟨[c, a], [], by simp [arrange, arrangeFrom, h, h', Nat.mod_one], by simp, by simp, by simp [h], by simp [h]⟩
  · exact ⟨[c], [a], by simp [arrange, arrangeFrom, h, h', Nat.mod_one], by simp, by simp, by simp [h], by simp [h]⟩

end Sys2Proof.Machine
end

section
/-! PROOF. What each block holds after a good image was found (sections 8.8, 9.1, 10.2 and 10.4). -/

namespace Sys2Proof.Machine

/-- The state in which the meeting of a found configuration begins: each block has taken the loaded values. -/
def State.loaded (cfg : Configuration) (noise : Rat) (vholdHolds : Bool) (s : State) : State :=
  let s1 := s.endLoading (.configured cfg) vholdHolds
  let s2 := s1.setLine { s1.line with receiver := .listening }
  let s3 := s2.setOrigins (s2.origins.rebuild cfg.origins)
  let s4 := s3.setRelay { s3.relay with generator := ⟨cfg.stagger, noise, 0⟩ }
  let s5 := s4.setTime (s4.time.lower cfg)
  s5.setMonitor { s5.monitor with silence := cfg.silenceStart }

/-- The events of the meeting of a found configuration (R164, R191). -/
def foundReports (cfg : Configuration) : List (State → State) :=
  [State.examineProgram cfg, State.placeChannels cfg, State.expireAndResolve cfg]

theorem State.foundConfigured_eq (cfg : Configuration) (noise : Rat) (v : Bool) (s : State) :
    s.foundConfigured cfg noise v = (s.loaded cfg noise v).inSomeOrder (foundReports cfg) := rfl

theorem forall_mem_foundReports {cfg : Configuration} {P : (State → State) → Prop}
    (hexamine : P (State.examineProgram cfg)) (hplace : P (State.placeChannels cfg))
    (hexpire : P (State.expireAndResolve cfg)) : ∀ act ∈ foundReports cfg, P act := by
  simp only [foundReports, List.forall_mem_cons, List.not_mem_nil, false_implies, implies_true, and_true]
  exact ⟨hexamine, hplace, hexpire⟩

/-! ## The blocks other than the channels -/

section
variable {cfg : Configuration} {s : State}

theorem State.foundReports_frame : s.keepsAllBut [.meetings, .programs, .resolver, .channels, .register, .monitor,
    .status] (s.inSomeOrder (foundReports cfg)) :=
  State.inSomeOrder_frame (by decide) (forall_mem_foundReports (fun t => (t.examineProgram_frame cfg).mono (by decide))
    (fun t => (t.placeChannels_frame cfg).mono (by decide)) fun t => (t.expireAndResolve_frame cfg).mono (by decide))

theorem State.placeChannels_noted (s : State) : s.status.mayNote (s.placeChannels cfg).status := by
  have h : (s.placeChannels cfg).status = s.status ∨
      (s.placeChannels cfg).status = { s.status with changePending := true } :=
    State.onEachChannel_noting s.takeConditions _
  obtain h | h := h
  · rw [h]
    exact ⟨rfl, rfl, id⟩
  · rw [h]
    exact ⟨rfl, rfl, fun _ => rfl⟩

theorem StatusPort.mayNote.trans {a b c : StatusPort} (h : a.mayNote b) (h' : b.mayNote c) : a.mayNote c :=
  ⟨h'.1.trans h.1, h'.2.1.trans h.2.1, fun hp => h'.2.2 (h.2.2 hp)⟩

theorem State.foundReports_noted : s.status.mayNote (s.inSomeOrder (foundReports cfg)).status :=
  State.inSomeOrder_keeps (P := fun t => s.status.mayNote t.status)
    (forall_mem_foundReports (P := fun act => ∀ t : State, s.status.mayNote t.status → s.status.mayNote (act t).status)
      (fun t ht => StatusPort.mayNote.trans ht (t.examineAwaiting_reports cfg []).noted)
      (fun t ht => StatusPort.mayNote.trans ht t.placeChannels_noted)
      fun t ht => StatusPort.mayNote.trans ht (t.expireAndResolve_reports cfg).noted)
    ⟨rfl, rfl, id⟩

theorem State.foundReports_timed {x : Timekeeper} : ∀ act ∈ foundReports cfg, ∀ t : State, t.timedAs x →
    (act t).timedAs x :=
  forall_mem_foundReports (fun t => State.timedAs_of_time (t.examineProgram_frame cfg .time (by decide)))
    (fun t => State.timedAs_of_time (t.placeChannels_frame cfg .time (by decide)))
    fun t => State.timedAs_of_time (t.expireAndResolve_frame cfg .time (by decide))

/-- The pending program is examined once or, where the examination has no more to do, twice (R95). -/
theorem State.foundReports_programs : (s.inSomeOrder (foundReports cfg)).programs = s.programs.examined s.time := by
  refine (State.inSomeOrder_settles State.programs (Collector.examined s.time) True (State.timedAs s.time)
    State.foundReports_timed ⟨rfl, rfl⟩ (Collector.examined_examined s.time)
    (forall_mem_foundReports (fun t ht => .inr ⟨trivial, (t.examineProgram_programs cfg).trans
        (Collector.examined_congr ht.1 ht.2 _)⟩) (fun t _ => .inl (t.placeChannels_frame cfg .programs (by decide)))
      fun t _ => .inl (t.expireAndResolve_frame cfg .programs (by decide)))
    fun _ => ⟨_, List.mem_cons_self, fun t ht => (t.examineProgram_programs cfg).trans
      (Collector.examined_congr ht.1 ht.2 _)⟩).trans (if_pos trivial)

theorem State.foundReports_windows :
    (s.inSomeOrder (foundReports cfg)).resolver.windows = s.time.expired s.resolver.windows := by
  refine (State.inSomeOrder_settles (fun t => t.resolver.windows) s.time.expired True (State.timedAs s.time)
    State.foundReports_timed ⟨rfl, rfl⟩ s.time.expired_expired
    (forall_mem_foundReports (fun t _ => .inl (t.examineProgram_windows cfg))
      (fun t _ => .inl (congrArg Resolver.windows (t.placeChannels_frame cfg .resolver (by decide))))
      fun t ht => .inr ⟨trivial, ht.expireAndResolve_windows⟩)
    fun _ => ⟨State.expireAndResolve cfg, by simp [foundReports], fun t ht => ht.expireAndResolve_windows⟩).trans
    (if_pos trivial)

theorem State.foundReports_resolved (h : s.resolver.index = s.register) :
    (s.inSomeOrder (foundReports cfg)).resolved cfg := by
  have hplaced : ∀ t : State, t.resolver.index = t.register →
      (t.placeChannels cfg).resolver.index = (t.placeChannels cfg).register := fun t ht => by
    have hf := t.placeChannels_frame cfg
    rw [(hf .resolver (by decide) : _ = t.resolver), (hf .register (by decide) : _ = t.register), ht]
  exact State.inSomeOrder_makes (P := State.resolved cfg) (Q := fun t => t.resolver.index = t.register) [_, _] []
    (State.expireAndResolve cfg)
    (forall_mem_foundReports (fun t => State.examineProgram_resolved)
      (fun t => State.resolved_of_frame (t.placeChannels_frame cfg) (by decide))
      fun t ht => State.expireAndResolve_resolved ht.2.2)
    (forall_mem_foundReports (fun t => State.examineAwaiting_index) hplaced
      fun t ht => (State.expireAndResolve_resolved (cfg := cfg) ht).2.2)
    (fun t => State.expireAndResolve_resolved) h

/-- The monitor but for TIME_INVALID and NO_PROGRAM. -/
def Monitor.apart (m : Monitor) : Monitor :=
  { m with conditions := { m.conditions with timeInvalid := false, noProgram := false } }

theorem Monitor.eq_of_apart {m m' : Monitor} (h : m.apart = m'.apart) : m = { m' with
    conditions := { m'.conditions with
      timeInvalid := m.conditions.timeInvalid, noProgram := m.conditions.noProgram } } := by
  have hconditions := congrArg Monitor.conditions h
  obtain ⟨⟨_, _, _, _, _⟩, _, _, _, _⟩ := m
  obtain ⟨⟨_, _, _, _, _⟩, _, _, _, _⟩ := m'
  simp_all [Monitor.apart]

theorem State.foundReports_apart : (s.inSomeOrder (foundReports cfg)).monitor.apart = s.monitor.apart := by
  refine State.inSomeOrder_none (fun t => t.monitor.apart) _ (forall_mem_foundReports (fun t => ?_) (fun t => ?_)
    fun t => congrArg Monitor.apart (t.expireAndResolve_frame cfg .monitor (by decide)))
  · obtain h | ⟨h, -⟩ := t.examineAwaiting_monitor cfg [] <;> rw [State.examineProgram, h]
    rfl
  · rw [State.placeChannels_monitor]
    rfl

/-- The placement takes TIME_INVALID and NO_PROGRAM as they stand, and an activation after it clears NO_PROGRAM
(R147). -/
theorem State.foundReports_conditions :
    let t := s.inSomeOrder (foundReports cfg)
    t.monitor.conditions.timeInvalid = !t.time.state.valid ∧ t.monitor.conditions.noProgram = t.programs.active.isNone := by
  have hof : ∀ {ps : List Part} {t u : State}, t.keepsAllBut ps u → Part.monitor ∉ ps → Part.time ∉ ps →
      Part.programs ∉ ps → (t.monitor.conditions.timeInvalid = !t.time.state.valid ∧
        t.monitor.conditions.noProgram = t.programs.active.isNone) →
      u.monitor.conditions.timeInvalid = !u.time.state.valid ∧
        u.monitor.conditions.noProgram = u.programs.active.isNone := fun {ps t u} hf hm ht hp h => by
    rw [(hf .monitor hm : u.monitor = t.monitor), (hf .time ht : u.time = t.time),
      (hf .programs hp : u.programs = t.programs)]
    exact h
  have hplaced : ∀ t : State, (t.placeChannels cfg).monitor.conditions.timeInvalid =
      (!(t.placeChannels cfg).time.state.valid) ∧
      (t.placeChannels cfg).monitor.conditions.noProgram = (t.placeChannels cfg).programs.active.isNone := fun t => by
    have hf := t.placeChannels_frame cfg
    rw [State.placeChannels_monitor, (hf .time (by decide) : _ = t.time), (hf .programs (by decide) : _ = t.programs)]
    exact ⟨rfl, rfl⟩
  refine State.inSomeOrder_makes (Q := fun _ => True) (P := fun t : State =>
      t.monitor.conditions.timeInvalid = (!t.time.state.valid) ∧
      t.monitor.conditions.noProgram = t.programs.active.isNone)
    [State.examineProgram cfg] [State.expireAndResolve cfg] (State.placeChannels cfg)
    (forall_mem_foundReports (fun t ht => ?_) (fun t _ => hplaced t)
      fun t => hof (t.expireAndResolve_frame cfg) (by decide) (by decide) (by decide))
    (fun _ _ _ _ => trivial) (fun t _ => hplaced t) trivial
  refine State.examineAwaiting_keeps (P := fun u : State =>
    u.monitor.conditions.timeInvalid = (!u.time.state.valid) ∧
    u.monitor.conditions.noProgram = u.programs.active.isNone) ht fun p => ?_
  have hf := t.activate_frame cfg [] p
  rw [State.activate_monitor, State.activate_programs, (hf .time (by decide) : _ = t.time)]
  exact ⟨ht.1, rfl⟩

theorem State.foundReports_monitor :
    let t := s.inSomeOrder (foundReports cfg)
    t.monitor = { s.monitor with conditions := { s.monitor.conditions with
      timeInvalid := !t.time.state.valid, noProgram := t.programs.active.isNone } } := by
  intro t
  obtain ⟨hinvalid, hprogram⟩ := State.foundReports_conditions (cfg := cfg) (s := s)
  rw [← hinvalid, ← hprogram]
  exact Monitor.eq_of_apart State.foundReports_apart

end
end Sys2Proof.Machine
end

section
/-! PROOF. The channels after a good image was found, and what the attempt that found it did (sections 8.8, 9.1 and
10.4). -/

namespace Sys2Proof.Machine

/-! ## The states a placed channel may be left in -/

section
variable (cc : ChannelConfig) (slot : Nat) (idle : Prop) (x : ChannelState)

/-- Held, or past the hold by its return countdown (R163, R164). -/
def ChannelConfig.heldOrReturns : Prop := x = .fallbackHold ∨ x = cc.returnState slot

/-- Held, past the hold, or let go by its flag, which NO_PROGRAM alone can have done, where no program was active
before (R159, R164). -/
def ChannelConfig.mayAwaitRelease : Prop :=
  cc.heldOrReturns slot x ∨ cc.noAutoReturn = true ∧ cc.mask.noProgram = true ∧ idle ∧ x = .releaseWait

/-- As `mayAwaitRelease`; and a channel that NO_PROGRAM held at its placement is not past the hold by a countdown where
its flag says otherwise (R164). -/
def ChannelConfig.awaitsRelease : Prop :=
  cc.mayAwaitRelease slot idle x ∧
    (cc.noAutoReturn = true → cc.mask.noProgram = true → idle → x = .fallbackHold ∨ x = .releaseWait)

end

section
variable {cfg : Configuration} {s t : State}

/-- The events before the placement carry every channel, and leave no program inactive that was active. -/
def State.beforePlacing (s t : State) : Prop :=
  s.carriesUnits t ∧ (t.programs.active = none → s.programs.active = none)

theorem State.beforePlacing.examineProgram (h : s.beforePlacing t) : s.beforePlacing (t.examineProgram cfg) := by
  refine ⟨h.1.trans t.examineProgram_carriesUnits, ?_⟩
  refine State.examineAwaiting_keeps (P := fun u => u.programs.active = none → s.programs.active = none) h.2
    fun p hnone => ?_
  rw [State.activate_programs] at hnone
  cases hnone

theorem State.beforePlacing.expireAndResolve (h : s.beforePlacing t) : s.beforePlacing (t.expireAndResolve cfg) := by
  refine ⟨h.1.trans t.expireAndResolve_carriesUnits, ?_⟩
  rw [(t.expireAndResolve_frame cfg .programs (by decide) : (t.expireAndResolve cfg).programs = t.programs)]
  exact h.2

theorem State.beforePlacing_of_events {pre : List (State → State)}
    (h : ∀ act ∈ pre, act = State.examineProgram cfg ∨ act = State.expireAndResolve cfg) (s : State) :
    s.beforePlacing (pre.foldl (fun s act => act s) s.met) := by
  refine foldl_acts_keep (P := fun t => s.beforePlacing t) pre (fun act hact t ht => ?_) _
    ⟨fun c => .refl _, id⟩
  obtain rfl | rfl := h act hact
  exacts [ht.examineProgram, ht.expireAndResolve]

/-- The channels after the meeting: in whatever order, and by the meeting's number (R163, R164; log 5). -/
theorem State.foundReports_placedFrom (hmin : ∀ c, 1 ≤ (cfg.channel c).minDwell) (s : State) :
    let t := s.inSomeOrder (foundReports cfg)
    s.placedFrom cfg (fun c => (cfg.channel c).mayAwaitRelease cfg.stagger (s.programs.active = none)) t ∧
    (s.meeting % 3 = 0 → s.placedFrom cfg (fun c => (cfg.channel c).heldOrReturns cfg.stagger) t) ∧
    (s.meeting % 3 = 1 →
      s.placedFrom cfg (fun c => (cfg.channel c).awaitsRelease cfg.stagger (s.programs.active = none)) t) := by
  intro t
  obtain ⟨pre, post, harrange, hpre, hpost, hzero, hone⟩ := arrange_three s.meeting (State.examineProgram cfg)
    (State.placeChannels cfg) (State.expireAndResolve cfg)
  have ht : t = post.foldl (fun s act => act s) ((pre.foldl (fun s act => act s) s.met).placeChannels cfg) := by
    have harranged : arrange s.meeting (foundReports cfg) = pre ++ State.placeChannels cfg :: post := harrange
    show s.inSomeOrder (foundReports cfg) = _
    rw [State.inSomeOrder, harranged, List.foldl_append, List.foldl_cons]
  have hbefore := State.beforePlacing_of_events hpre s
  rw [ht]
  refine ⟨?_, fun hk => ?_, fun hk => ?_⟩
  · refine foldl_acts_keep (P := fun u => s.placedFrom cfg _ u) post (fun act hact u hu => ?_) _
      (State.placeChannels_placedFrom hmin hbefore.1 hbefore.2 (fun c => .inl (.inl rfl)) fun c _ => .inl (.inr rfl))
    obtain rfl | rfl := hpost act hact
    · exact hu.examineProgram hmin (fun c hmask hnone hauto => .inr ⟨hauto, hmask, hnone, rfl⟩) fun c _ => .inl (.inr rfl)
    · exact hu.expireAndResolve hmin
  · refine foldl_acts_keep (P := fun u => s.placedFrom cfg _ u) post (fun act hact u hu => ?_) _
      (State.placeChannels_placedFrom hmin hbefore.1 hbefore.2 (fun c => .inl rfl) fun c _ => .inr rfl)
    obtain rfl := hzero hk act hact
    exact hu.expireAndResolve hmin
  · obtain rfl := hone hk
    refine foldl_acts_keep (P := fun u => s.placedFrom cfg _ u) post (fun act hact u hu => ?_) _
      (State.placeChannels_placedFrom hmin hbefore.1 hbefore.2 (fun c => ⟨.inl (.inl rfl), fun _ _ _ => .inl rfl⟩)
        fun c hactive => ⟨.inl (.inr rfl), fun _ hmask hnone => absurd hnone (hactive hmask)⟩)
    obtain rfl | rfl := hpost act hact
    · exact hu.examineProgram hmin
        (fun c hmask hnone hauto => ⟨.inr ⟨hauto, hmask, hnone, rfl⟩, fun _ _ _ => .inr rfl⟩)
        fun c hauto => ⟨.inl (.inr rfl), fun h => by rw [hauto] at h; cases h⟩
    · exact hu.expireAndResolve hmin

/-! ## A settled channel's request -/

/-- The deferred request of a settled channel is the requested level, where the output is not at it (R161, R173). -/
theorem ChannelUnit.settled.deferred_eq {cc : ChannelConfig} {active : Conditions} {v : ChannelUnit}
    (h : v.settled cc active) : v.deferred = if v.requested cc = v.output then none else some (v.requested cc) := by
  obtain ⟨-, hcurrent, hne, -⟩ := h
  cases hd : v.deferred with
  | none =>
    have hsame : v.output = v.requested cc := by rwa [ChannelUnit.currentRequest, hd] at hcurrent
    exact (if_pos hsame.symm).symm
  | some l =>
    have hrequest : l = v.requested cc := by rwa [ChannelUnit.currentRequest, hd] at hcurrent
    rw [← hrequest]
    exact (if_neg fun heq => hne (by rw [hd, heq])).symm

end

theorem Configuration.inRange.minDwell_pos {cfg : Configuration} (h : cfg.inRange) (c : Channel) :
    1 ≤ (cfg.channel c).minDwell := by
  obtain ⟨-, -, -, -, -, -, -, -, -, -, -, -, -, -, -, -, hchannels⟩ := h
  obtain ⟨-, -, hmin, -⟩ := hchannels c (mem_channelList c)
  exact hmin

/-- A used channel that nothing holds after the meeting: where it went, and what the meeting's number says of it
(R164). -/
theorem State.foundReports_unheld {cfg : Configuration} {w : State} (hmin : ∀ c, 1 ≤ (cfg.channel c).minDwell)
    {c : Channel} (hused : (cfg.channel c).used = true) :
    let t := w.inSomeOrder (foundReports cfg)
    let cc := cfg.channel c
    let v := t.channels.get c
    let cleared := cc.mask.noProgram = true ∧ w.programs.active = none ∧ t.programs.active ≠ none
    v.state ≠ .fallbackHold → (cc.mask.noProgram = true → t.programs.active ≠ none) →
      (v.state = cc.returnState cfg.stagger ∨ cc.noAutoReturn = true ∧ cleared ∧ v.state = .releaseWait) ∧
      (w.meeting % 3 = 0 → v.state = cc.returnState cfg.stagger) ∧
      (w.meeting % 3 = 1 → cc.noAutoReturn = true → cleared → v.state = .releaseWait) ∧
      ∀ n, v.state = .returnWait n → v.returnSet = true := by
  intro t cc v cleared hfree hactive
  obtain ⟨hany, hzero, hone⟩ := State.foundReports_placedFrom hmin w
  refine ⟨?_, fun hk => ?_, fun hk hauto hcleared => ?_, (hany.units c).counted⟩
  · obtain (h | h) | ⟨hauto, hmask, hnone, h⟩ := (hany.units c).state hused
    · exact absurd h hfree
    · exact .inl h
    · exact .inr ⟨hauto, ⟨hmask, hnone, hactive hmask⟩, h⟩
  · exact (((hzero hk).units c).state hused).resolve_left hfree
  · exact ((((hone hk).units c).state hused).2 hauto hcleared.1 hcleared.2.1).resolve_left hfree

/-- What an examination makes of the programs (R95, R96). -/
theorem Collector.examined_spec (k : Collector) (t : Timekeeper) :
    match k.next with
    | some p =>
      if p.activation = ⟨0, 0⟩ ∨ t.state.valid = true ∧ t.clock.hasReached p.activation = true then
        (k.examined t).active = some p ∧ (k.examined t).next = none
      else (k.examined t).active = k.active ∧ (k.examined t).next = some p
    | none => (k.examined t).active = k.active ∧ (k.examined t).next = none := by
  unfold Collector.examined
  cases hnext : k.next with
  | none => exact ⟨rfl, hnext⟩
  | some p =>
    dsimp only
    split_ifs
    exacts [⟨rfl, rfl⟩, ⟨rfl, hnext⟩]

section
variable (cfg : Configuration) (noise : Rat) (vhold : Bool) (a : StoreAnswer) (s : State)

theorem State.loaded_frame : s.keepsAllBut [.power, .line, .origins, .relay, .time, .monitor, .loader, .status]
    (s.loaded cfg noise vhold) := by
  intro p hp
  cases p <;> first | rfl | exact absurd (by decide) hp

theorem State.attempted_loaded :
    let w := (s.attempted a).loaded cfg noise vhold
    w.loader = ⟨.configured cfg, s.loader.attempts, imageBuffer a s.loader.image, none, attemptActions a⟩ ∧
    w.line = { s.line with receiver := .listening } ∧ w.origins = s.origins.rebuild cfg.origins ∧
    w.relay = { s.relay with generator := ⟨cfg.stagger, noise, 0⟩ } ∧ w.time = s.time.lower cfg ∧
    w.monitor = { s.monitor with silence := cfg.silenceStart } ∧
    w.status = { s.status with changePending := true } ∧ w.power = { s.power with mark := vhold } :=
  ⟨rfl, rfl, rfl, rfl, rfl, rfl, rfl, rfl⟩

theorem State.attempted_frame : s.keepsAllBut [.loader] (s.attempted a) := s.setLoader_frame _

end

/-- Settles O11: the blocks by what the meeting's events make of each, in any order, and the channels by their
placement and by what may follow it. -/
theorem foundConfiguredActsInEveryBlock : Obligations.FoundConfiguredActsInEveryBlock := by
  intro s a noise vhold image hrun hload hretry hdata hlength hcheck hversion hindex cfg
  have hin : cfg.inRange := configurationOf_inRange hlength
  have hcomplete : attemptComplete a = true := by simp [attemptComplete, hdata, hlength]
  have hafter : s.after (.readAttemptEnd a noise vhold) = (s.attempted a).foundConfigured cfg noise vhold := by
    rw [State.after_readAttemptEnd_of_complete hrun hload hretry hcomplete,
      State.judgeAttempt_of_good hdata hcheck hversion]
  clear_value cfg
  have hbuffer : imageBuffer a s.loader.image = some image := by rw [imageBuffer, hdata]
  have hsettled := State.foundConfigured_settled cfg noise vhold (s.attempted a)
  rw [State.foundConfigured_eq] at hafter hsettled
  have hrest : s.keepsAllBut [.power, .line, .origins, .relay, .time, .monitor, .loader, .status]
      ((s.attempted a).loaded cfg noise vhold) := ((s.attempted_frame a).mono (by decide)).trans (State.loaded_frame cfg noise vhold _)
  obtain ⟨hloader, hline, horigins, hrelay, htime, hmonitor, hstatus, hpower⟩ :=
    State.attempted_loaded cfg noise vhold a s
  rw [hbuffer] at hloader
  generalize (s.attempted a).loaded cfg noise vhold = w at *
  have hframe := State.foundReports_frame (cfg := cfg) (s := w)
  have hresolverW : w.resolver = s.resolver := hrest .resolver (by decide)
  have hprogramsW : w.programs = s.programs := hrest .programs (by decide)
  have hchannelsW : w.channels = s.channels := hrest .channels (by decide)
  have hmeetingsW : w.meetings = s.meetings := hrest .meetings (by decide)
  have hregisterW : w.register = s.register := hrest .register (by decide)
  have htimeT : (w.inSomeOrder (foundReports cfg)).time = s.time.lower cfg := (hframe .time (by decide)).trans htime
  have hprogramsT : (w.inSomeOrder (foundReports cfg)).programs = s.programs.examined (s.time.lower cfg) := by
    rw [State.foundReports_programs, hprogramsW, htime]
  have hmonitorT := State.foundReports_monitor (cfg := cfg) (s := w)
  have hmin := fun c => hin.minDwell_pos c
  obtain ⟨hplaced, -, -⟩ := State.foundReports_placedFrom hmin w
  have hunheld := fun c => State.foundReports_unheld hmin (w := w) (c := c)
  obtain ⟨hband, hregister, -⟩ := State.foundReports_resolved (cfg := cfg) (s := w) (by rw [hresolverW, hregisterW, hindex])
  have hnoted := State.foundReports_noted (cfg := cfg) (s := w)
  have hwindowsT := State.foundReports_windows (cfg := cfg) (s := w)
  refine ⟨_, exec_eq_next _ s, ?_⟩
  rw [hafter]
  generalize w.inSomeOrder (foundReports cfg) = t at *
  refine ⟨(hframe .loader (by decide)).trans hloader, (hframe .line (by decide)).trans hline,
    (hframe .origins (by decide)).trans horigins, (hframe .relay (by decide)).trans hrelay, htimeT, ?_, ?_, ?_, ?_,
    hband, hregister, fun c => ?_, ?_, (hframe .power (by decide)).trans hpower, ?_⟩
  · rw [hprogramsT, Collector.examined]
    split
    · split_ifs <;> rfl
    · rfl
  · rw [hprogramsT, Collector.examined_congr (t := s.time.lower cfg) (x := s.time) rfl rfl]
    exact s.programs.examined_spec s.time
  · rw [hmonitorT, hmonitor]
    rfl
  · rw [htimeT, hwindowsT, hresolverW, htime]
    rfl
  · intro cc u v seconds held waits cleared
    have hunit := hplaced.units c
    rw [hchannelsW] at hunit
    obtain ⟨⟨hoverride, hinput, hforced, hsetter⟩, houtput, hdwell, hmark, -, -⟩ := hunit
    have hchannel := hsettled c
    obtain ⟨hhanded, -, -, hstate⟩ := hsettled c
    have hheld : held ↔ v.effective cc t.monitor.conditions = true := by
      rw [ChannelUnit.effective_iff, (hforced : v.forced = u.forced)]
    refine ⟨hoverride, hinput, hforced, hsetter, houtput, hdwell, hmark, hhanded, hchannel.deferred_eq, fun hunused => ?_,
      fun hused hh => ?_, fun hused hfree => ?_⟩
    · rw [hunused] at hstate
      exact hstate.1
    · rw [if_pos hused] at hstate
      exact hstate.2 (hheld.1 hh)
    · rw [if_pos hused] at hstate
      have hactive : cc.mask.noProgram = true → t.programs.active ≠ none := fun hmask hnone =>
        hfree (.inr ⟨.noProgram, by rw [hmonitorT, hnone]; rfl, hmask⟩)
      have hcase := hunheld c hused (fun hhold => hfree (hheld.2 (hstate.1 hhold))) hactive
      rw [hprogramsW, State.meeting, hmeetingsW] at hcase
      exact hcase
  · rw [hstatus] at hnoted
    exact StatusPort.eq_of_pending hnoted rfl
  · exact (hrest.mono (by decide)).trans (hframe.mono (by decide))

end Sys2Proof.Machine
end
